-- ==== Sys2Proof/Word.lean ====
section
/-!
DEFINITION. The words of the block and the Frame record: 10_state.md R21 (32-bit registers), 00_scope.md R13 (Frame).
-/

namespace Sys2Proof

/-- A host register, a command word, a filter word, a callback reference: 32 bits (R21, R35, R36). -/
abbrev Word := BitVec 32

/-- The Frame record of R13: seven fields, 107 bits for W_FMI = 8. Two frames are equal exactly when all seven fields
are. -/
structure Frame where
  /-- identifier; a standard identifier occupies bits 10:0 -/
  id    : BitVec 29
  /-- 1 = extended identifier -/
  ext   : Bool
  /-- 1 = remote frame -/
  rtr   : Bool
  len   : BitVec 4
  /-- filter-match index, W_FMI bits as a number (R9; log entry 4); for SEND the destination selector -/
  idx   : Nat
  data0 : Word
  data1 : Word
  deriving DecidableEq, Repr, Inhabited

end Sys2Proof
end

