-- ==== Sys2Proof/Syntax.lean ====
section
/-!
DEFINITION. The 38 instructions of spec/opcode_table.json: 35 commands and 3 vector strobes (30_encoding.md R106, R107).
-/

namespace Sys2Proof

/-- Queue number (R110): 0 RXQ0, 1 RXQ1, 2 TXQ. -/
inductive QueueId where
  | rxq0
  | rxq1
  | txq
  deriving DecidableEq, Repr

/-- FIFO number (R110). -/
inductive FifoId where
  | fifo0
  | fifo1
  deriving DecidableEq, Repr

/-- Field selector of TSET and TGET (10_state.md R30): 0 .. 5. -/
inductive TField where
  | brp
  | ps1
  | ps2
  | rjw
  | ts
  | ok
  deriving DecidableEq, Repr

/-- Field selector of SSET and SGET (10_state.md R30): 0 .. 7. -/
inductive SField where
  | rx0sz
  | rx1sz
  | txsz
  | mode
  | txprio
  | oc
  | rate
  | tol
  deriving DecidableEq, Repr

/-- What FGET reads (R111): 0 .. 8. -/
inductive FWhat where
  | w1
  | w2
  | scale
  | mode
  | fifo
  | cb0Len
  | cb1Len
  | cb0
  | cb1
  deriving DecidableEq, Repr

/-- The instructions. An immediate is "the natural number w[15:0]" (R105). -/
inductive Instr where
  -- FQ, 41_frame_queue.md
  | qinit (q : QueueId) (n : Nat)
  | qappend (q : QueueId)
  | qremove (q : QueueId)
  | qfree (q : QueueId)
  | qrstpeak (q : QueueId)
  | qcount (q : QueueId)
  | qpeak (q : QueueId)
  | qcap (q : QueueId)
  -- BT, 42_bit_timing.md
  | resolve
  | tset (f : TField) (v : Nat)
  | tget (f : TField)
  | tcheck
  | trate
  | texact
  | tppm
  | tsample
  | sset (f : SField) (v : Nat)
  | sget (f : SField)
  -- FB, 43_filter_bank.md
  | fstdmask (k : FifoId)
  | fstdquad (k : FifoId)
  | fextmask (k : FifoId)
  | fextdual (k : FifoId)
  | fcount
  | fget (what : FWhat) (index : Nat)
  -- DRV, 44_driver.md
  | drvBegin
  | drvEnd
  | send
  | recv0
  | recv1
  | disp0
  | disp1
  | disp
  | avail0
  | avail1
  | dstate
  -- vector strobes, 60_exceptions.md
  | isrRx0
  | isrRx1
  | isrTx
  deriving DecidableEq, Repr

end Sys2Proof
end

