-- ==== Sys2Proof/WellFormed.lean ====
section
/-!
DEFINITION. Which instructions have an encoding: an immediate fits its 16 bits (30_encoding.md R102, R105).
-/

namespace Sys2Proof

/-- An immediate operand is in 0 .. 65535 (R105). Queue, FIFO and selector operands cannot be out of range: they are
closed types. -/
def Instr.wf : Instr → Bool
  | .qinit _ n => decide (n < 65536)
  | .tset _ v => decide (v < 65536)
  | .sset _ v => decide (v < 65536)
  | .fget _ i => decide (i < 65536)
  | .qappend _ | .qremove _ | .qfree _ | .qrstpeak _ | .qcount _ | .qpeak _ | .qcap _ => true
  | .resolve | .tget _ | .tcheck | .trate | .texact | .tppm | .tsample | .sget _ => true
  | .fstdmask _ | .fstdquad _ | .fextmask _ | .fextdual _ | .fcount => true
  | .drvBegin | .drvEnd | .send | .recv0 | .recv1 | .disp0 | .disp1 | .disp | .avail0 | .avail1 | .dstate => true
  | .isrRx0 | .isrRx1 | .isrTx => true

end Sys2Proof
end

