-- ==== Sys2Proof/Decode.lean ====
section
/-!
DEFINITION. The decoder, the encoder and the opcode table: 30_encoding.md R100 to R113, R125.
-/

namespace Sys2Proof

/-- What reaches the block: a command word written to CMD, or a 2-bit code on the vector port (R100). -/
inductive Code where
  | command (w : Word)
  | vector (v : BitVec 2)
  deriving DecidableEq, Repr

/-- Why a code is no instruction (R125; R107 for the vector port). -/
inductive DecodeError where
  /-- `op` is not one of the 35 values of R106 -/
  | unknownOpcode
  /-- a field the format requires to be zero is not -/
  | unusedField
  /-- q ≥ 3 -/
  | reservedQueue
  /-- k ≥ 2 -/
  | reservedFifo
  /-- a selector outside 10_state.md R30 or R111 -/
  | reservedSelector
  /-- vector code 0b11 -/
  | reservedVector
  deriving DecidableEq, Repr

/-! ### Fields of a command word (R102) -/

/-- `op`, bits 31:24. -/
def opOf (w : Word) : Nat := w.toNat / 2 ^ 24
/-- `a`, bits 23:16. -/
def aOf (w : Word) : Nat := w.toNat / 2 ^ 16 % 2 ^ 8
/-- `imm`, bits 15:0. -/
def immOf (w : Word) : Nat := w.toNat % 2 ^ 16

/-- A command word from its three fields (R102). -/
def mkWord (op a imm : Nat) : Word := BitVec.ofNat 32 (op * 2 ^ 24 + a * 2 ^ 16 + imm)

/-! ### Operand numbers (R110, R111, 10_state.md R30) -/

def QueueId.code : QueueId → Nat
  | .rxq0 => 0
  | .rxq1 => 1
  | .txq => 2

def QueueId.ofCode : Nat → Option QueueId
  | 0 => some .rxq0
  | 1 => some .rxq1
  | 2 => some .txq
  | _ => none

def FifoId.code : FifoId → Nat
  | .fifo0 => 0
  | .fifo1 => 1

def FifoId.ofCode : Nat → Option FifoId
  | 0 => some .fifo0
  | 1 => some .fifo1
  | _ => none

def TField.code : TField → Nat
  | .brp => 0
  | .ps1 => 1
  | .ps2 => 2
  | .rjw => 3
  | .ts => 4
  | .ok => 5

def TField.ofCode : Nat → Option TField
  | 0 => some .brp
  | 1 => some .ps1
  | 2 => some .ps2
  | 3 => some .rjw
  | 4 => some .ts
  | 5 => some .ok
  | _ => none

def SField.code : SField → Nat
  | .rx0sz => 0
  | .rx1sz => 1
  | .txsz => 2
  | .mode => 3
  | .txprio => 4
  | .oc => 5
  | .rate => 6
  | .tol => 7

def SField.ofCode : Nat → Option SField
  | 0 => some .rx0sz
  | 1 => some .rx1sz
  | 2 => some .txsz
  | 3 => some .mode
  | 4 => some .txprio
  | 5 => some .oc
  | 6 => some .rate
  | 7 => some .tol
  | _ => none

def FWhat.code : FWhat → Nat
  | .w1 => 0
  | .w2 => 1
  | .scale => 2
  | .mode => 3
  | .fifo => 4
  | .cb0Len => 5
  | .cb1Len => 6
  | .cb0 => 7
  | .cb1 => 8

def FWhat.ofCode : Nat → Option FWhat
  | 0 => some .w1
  | 1 => some .w2
  | 2 => some .scale
  | 3 => some .mode
  | 4 => some .fifo
  | 5 => some .cb0Len
  | 6 => some .cb1Len
  | 7 => some .cb0
  | 8 => some .cb1
  | _ => none

/-! ### Formats (R103) -/

/-- Format N: `a` and `imm` must be 0. -/
def formatN (i : Instr) (a imm : Nat) : Except DecodeError Instr :=
  if a = 0 ∧ imm = 0 then .ok i else .error .unusedField

/-- Format Q: `a` is a queue number, `imm` must be 0. -/
def formatQ (mk : QueueId → Instr) (a imm : Nat) : Except DecodeError Instr :=
  match QueueId.ofCode a with
  | none => .error .reservedQueue
  | some q => if imm = 0 then .ok (mk q) else .error .unusedField

/-- Format QI: `a` is a queue number, `imm` the capacity. -/
def formatQI (mk : QueueId → Nat → Instr) (a imm : Nat) : Except DecodeError Instr :=
  match QueueId.ofCode a with
  | none => .error .reservedQueue
  | some q => .ok (mk q imm)

/-- Format S for TGET: `a` is a selector, `imm` must be 0. -/
def formatST (mk : TField → Instr) (a imm : Nat) : Except DecodeError Instr :=
  match TField.ofCode a with
  | none => .error .reservedSelector
  | some f => if imm = 0 then .ok (mk f) else .error .unusedField

/-- Format S for SGET. -/
def formatSS (mk : SField → Instr) (a imm : Nat) : Except DecodeError Instr :=
  match SField.ofCode a with
  | none => .error .reservedSelector
  | some f => if imm = 0 then .ok (mk f) else .error .unusedField

/-- Format SI for TSET: `imm` is the value to write. -/
def formatSIT (mk : TField → Nat → Instr) (a imm : Nat) : Except DecodeError Instr :=
  match TField.ofCode a with
  | none => .error .reservedSelector
  | some f => .ok (mk f imm)

/-- Format SI for SSET. -/
def formatSIS (mk : SField → Nat → Instr) (a imm : Nat) : Except DecodeError Instr :=
  match SField.ofCode a with
  | none => .error .reservedSelector
  | some f => .ok (mk f imm)

/-- Format F: `a` is a FIFO number, `imm` must be 0. -/
def formatF (mk : FifoId → Instr) (a imm : Nat) : Except DecodeError Instr :=
  match FifoId.ofCode a with
  | none => .error .reservedFifo
  | some k => if imm = 0 then .ok (mk k) else .error .unusedField

/-- Format G: `a` is what to read, `imm` the index; every selector uses `imm` (90_conflicts.md C14). -/
def formatG (mk : FWhat → Nat → Instr) (a imm : Nat) : Except DecodeError Instr :=
  match FWhat.ofCode a with
  | none => .error .reservedSelector
  | some f => .ok (mk f imm)

/-- Decoding a command word (R101, R106). -/
def decodeCommand (w : Word) : Except DecodeError Instr :=
  match opOf w with
  | 0x10 => formatQI .qinit (aOf w) (immOf w)
  | 0x11 => formatQ .qappend (aOf w) (immOf w)
  | 0x12 => formatQ .qremove (aOf w) (immOf w)
  | 0x13 => formatQ .qfree (aOf w) (immOf w)
  | 0x14 => formatQ .qrstpeak (aOf w) (immOf w)
  | 0x15 => formatQ .qcount (aOf w) (immOf w)
  | 0x16 => formatQ .qpeak (aOf w) (immOf w)
  | 0x17 => formatQ .qcap (aOf w) (immOf w)
  | 0x20 => formatN .resolve (aOf w) (immOf w)
  | 0x21 => formatSIT .tset (aOf w) (immOf w)
  | 0x22 => formatST .tget (aOf w) (immOf w)
  | 0x23 => formatN .tcheck (aOf w) (immOf w)
  | 0x24 => formatN .trate (aOf w) (immOf w)
  | 0x25 => formatN .texact (aOf w) (immOf w)
  | 0x26 => formatN .tppm (aOf w) (immOf w)
  | 0x27 => formatN .tsample (aOf w) (immOf w)
  | 0x28 => formatSIS .sset (aOf w) (immOf w)
  | 0x29 => formatSS .sget (aOf w) (immOf w)
  | 0x30 => formatF .fstdmask (aOf w) (immOf w)
  | 0x31 => formatF .fstdquad (aOf w) (immOf w)
  | 0x32 => formatF .fextmask (aOf w) (immOf w)
  | 0x33 => formatF .fextdual (aOf w) (immOf w)
  | 0x34 => formatN .fcount (aOf w) (immOf w)
  | 0x35 => formatG .fget (aOf w) (immOf w)
  | 0x40 => formatN .drvBegin (aOf w) (immOf w)
  | 0x41 => formatN .drvEnd (aOf w) (immOf w)
  | 0x42 => formatN .send (aOf w) (immOf w)
  | 0x43 => formatN .recv0 (aOf w) (immOf w)
  | 0x44 => formatN .recv1 (aOf w) (immOf w)
  | 0x45 => formatN .disp0 (aOf w) (immOf w)
  | 0x46 => formatN .disp1 (aOf w) (immOf w)
  | 0x47 => formatN .disp (aOf w) (immOf w)
  | 0x48 => formatN .avail0 (aOf w) (immOf w)
  | 0x49 => formatN .avail1 (aOf w) (immOf w)
  | 0x4A => formatN .dstate (aOf w) (immOf w)
  | _ => .error .unknownOpcode

/-- Decoding a vector code (R107). -/
def decodeVector (v : BitVec 2) : Except DecodeError Instr :=
  match v.toNat with
  | 0 => .ok .isrRx0
  | 1 => .ok .isrRx1
  | 2 => .ok .isrTx
  | _ => .error .reservedVector

/-- The decoder: total, rejecting by name. -/
def decode : Code → Except DecodeError Instr
  | .command w => decodeCommand w
  | .vector v => decodeVector v

/-! ### The encoder (R102, R103, R106, R107) -/

/-- The word or vector code of a well-formed instruction. -/
def encode : Instr → Code
  | .qinit q n => .command (mkWord 0x10 q.code n)
  | .qappend q => .command (mkWord 0x11 q.code 0)
  | .qremove q => .command (mkWord 0x12 q.code 0)
  | .qfree q => .command (mkWord 0x13 q.code 0)
  | .qrstpeak q => .command (mkWord 0x14 q.code 0)
  | .qcount q => .command (mkWord 0x15 q.code 0)
  | .qpeak q => .command (mkWord 0x16 q.code 0)
  | .qcap q => .command (mkWord 0x17 q.code 0)
  | .resolve => .command (mkWord 0x20 0 0)
  | .tset f v => .command (mkWord 0x21 f.code v)
  | .tget f => .command (mkWord 0x22 f.code 0)
  | .tcheck => .command (mkWord 0x23 0 0)
  | .trate => .command (mkWord 0x24 0 0)
  | .texact => .command (mkWord 0x25 0 0)
  | .tppm => .command (mkWord 0x26 0 0)
  | .tsample => .command (mkWord 0x27 0 0)
  | .sset f v => .command (mkWord 0x28 f.code v)
  | .sget f => .command (mkWord 0x29 f.code 0)
  | .fstdmask k => .command (mkWord 0x30 k.code 0)
  | .fstdquad k => .command (mkWord 0x31 k.code 0)
  | .fextmask k => .command (mkWord 0x32 k.code 0)
  | .fextdual k => .command (mkWord 0x33 k.code 0)
  | .fcount => .command (mkWord 0x34 0 0)
  | .fget what i => .command (mkWord 0x35 what.code i)
  | .drvBegin => .command (mkWord 0x40 0 0)
  | .drvEnd => .command (mkWord 0x41 0 0)
  | .send => .command (mkWord 0x42 0 0)
  | .recv0 => .command (mkWord 0x43 0 0)
  | .recv1 => .command (mkWord 0x44 0 0)
  | .disp0 => .command (mkWord 0x45 0 0)
  | .disp1 => .command (mkWord 0x46 0 0)
  | .disp => .command (mkWord 0x47 0 0)
  | .avail0 => .command (mkWord 0x48 0 0)
  | .avail1 => .command (mkWord 0x49 0 0)
  | .dstate => .command (mkWord 0x4A 0 0)
  | .isrRx0 => .vector 0#2
  | .isrRx1 => .vector 1#2
  | .isrTx => .vector 2#2

/-! ### The opcode table (R113) -/

/-- A row of the opcode table: a code selects it when `code & mask = pattern`. `width` is 32 for a command and 2 for a
vector code. -/
structure Row where
  mnemonic : String
  width    : Nat
  pattern  : Nat
  mask     : Nat
  deriving DecidableEq, Repr

def queueRows : List Row :=
  [⟨"QINIT", 32, 0x10000000, 0xFFFC0000⟩, ⟨"QAPPEND", 32, 0x11000000, 0xFFFCFFFF⟩,
   ⟨"QREMOVE", 32, 0x12000000, 0xFFFCFFFF⟩, ⟨"QFREE", 32, 0x13000000, 0xFFFCFFFF⟩,
   ⟨"QRSTPEAK", 32, 0x14000000, 0xFFFCFFFF⟩, ⟨"QCOUNT", 32, 0x15000000, 0xFFFCFFFF⟩,
   ⟨"QPEAK", 32, 0x16000000, 0xFFFCFFFF⟩, ⟨"QCAP", 32, 0x17000000, 0xFFFCFFFF⟩]

def timingRows : List Row :=
  [⟨"RESOLVE", 32, 0x20000000, 0xFFFFFFFF⟩, ⟨"TSET", 32, 0x21000000, 0xFFF80000⟩,
   ⟨"TGET", 32, 0x22000000, 0xFFF8FFFF⟩, ⟨"TCHECK", 32, 0x23000000, 0xFFFFFFFF⟩,
   ⟨"TRATE", 32, 0x24000000, 0xFFFFFFFF⟩, ⟨"TEXACT", 32, 0x25000000, 0xFFFFFFFF⟩,
   ⟨"TPPM", 32, 0x26000000, 0xFFFFFFFF⟩, ⟨"TSAMPLE", 32, 0x27000000, 0xFFFFFFFF⟩,
   ⟨"SSET", 32, 0x28000000, 0xFFF80000⟩, ⟨"SGET", 32, 0x29000000, 0xFFF8FFFF⟩]

def filterRows : List Row :=
  [⟨"FSTDMASK", 32, 0x30000000, 0xFFFEFFFF⟩, ⟨"FSTDQUAD", 32, 0x31000000, 0xFFFEFFFF⟩,
   ⟨"FEXTMASK", 32, 0x32000000, 0xFFFEFFFF⟩, ⟨"FEXTDUAL", 32, 0x33000000, 0xFFFEFFFF⟩,
   ⟨"FCOUNT", 32, 0x34000000, 0xFFFFFFFF⟩, ⟨"FGET", 32, 0x35000000, 0xFFF00000⟩]

def driverRows : List Row :=
  [⟨"BEGIN", 32, 0x40000000, 0xFFFFFFFF⟩, ⟨"END", 32, 0x41000000, 0xFFFFFFFF⟩,
   ⟨"SEND", 32, 0x42000000, 0xFFFFFFFF⟩, ⟨"RECV0", 32, 0x43000000, 0xFFFFFFFF⟩,
   ⟨"RECV1", 32, 0x44000000, 0xFFFFFFFF⟩, ⟨"DISP0", 32, 0x45000000, 0xFFFFFFFF⟩,
   ⟨"DISP1", 32, 0x46000000, 0xFFFFFFFF⟩, ⟨"DISP", 32, 0x47000000, 0xFFFFFFFF⟩,
   ⟨"AVAIL0", 32, 0x48000000, 0xFFFFFFFF⟩, ⟨"AVAIL1", 32, 0x49000000, 0xFFFFFFFF⟩,
   ⟨"DSTATE", 32, 0x4A000000, 0xFFFFFFFF⟩]

def vectorRows : List Row :=
  [⟨"ISR_RX0", 2, 0, 3⟩, ⟨"ISR_RX1", 2, 1, 3⟩, ⟨"ISR_TX", 2, 2, 3⟩]

/-- The 38 rows of spec/opcode_table.json. -/
def opcodeTable : List Row := queueRows ++ timingRows ++ filterRows ++ driverRows ++ vectorRows

/-- A code selects a row of its own width when it agrees with the pattern under the mask (R113). -/
def Row.selects (r : Row) : Code → Bool
  | .command w => r.width == 32 && (w.toNat &&& r.mask) == r.pattern
  | .vector v => r.width == 2 && (v.toNat &&& r.mask) == r.pattern

/-- The mnemonic of an instruction, as the opcode table spells it. -/
def Instr.mnemonic : Instr → String
  | .qinit _ _ => "QINIT"
  | .qappend _ => "QAPPEND"
  | .qremove _ => "QREMOVE"
  | .qfree _ => "QFREE"
  | .qrstpeak _ => "QRSTPEAK"
  | .qcount _ => "QCOUNT"
  | .qpeak _ => "QPEAK"
  | .qcap _ => "QCAP"
  | .resolve => "RESOLVE"
  | .tset _ _ => "TSET"
  | .tget _ => "TGET"
  | .tcheck => "TCHECK"
  | .trate => "TRATE"
  | .texact => "TEXACT"
  | .tppm => "TPPM"
  | .tsample => "TSAMPLE"
  | .sset _ _ => "SSET"
  | .sget _ => "SGET"
  | .fstdmask _ => "FSTDMASK"
  | .fstdquad _ => "FSTDQUAD"
  | .fextmask _ => "FEXTMASK"
  | .fextdual _ => "FEXTDUAL"
  | .fcount => "FCOUNT"
  | .fget _ _ => "FGET"
  | .drvBegin => "BEGIN"
  | .drvEnd => "END"
  | .send => "SEND"
  | .recv0 => "RECV0"
  | .recv1 => "RECV1"
  | .disp0 => "DISP0"
  | .disp1 => "DISP1"
  | .disp => "DISP"
  | .avail0 => "AVAIL0"
  | .avail1 => "AVAIL1"
  | .dstate => "DSTATE"
  | .isrRx0 => "ISR_RX0"
  | .isrRx1 => "ISR_RX1"
  | .isrTx => "ISR_TX"

/-! ### The host's numbering of a table row's bits -/

/-- An instruction given as a number: up to 8 bits it is a code on the vector port, whose width is 2 (a larger number is
no code), else a command word of 32 bits (log entry 17). -/
def codeOfNumber (nbits w : Nat) : Option Code :=
  if nbits ≤ 8 then (if w < 4 then some (.vector (BitVec.ofNat 2 w)) else none)
  else if w < 2 ^ 32 then some (.command (BitVec.ofNat 32 w)) else none

/-- The instruction the decoder reads from an instruction whose bits are `w`. -/
def decodeTableWord (nbits w : Nat) : Option Instr :=
  match codeOfNumber nbits w with
  | none => none
  | some c =>
    match decode c with
    | .ok i => some i
    | .error _ => none

end Sys2Proof
end

