-- ==== Sys2Proof/Config.lean ====
section
/-!
DEFINITION. The parameters of 00_scope.md R9, the constants of R8, and the values the spec leaves open.
-/

namespace Sys2Proof

namespace Config

/-- NSLOT (R8): filter-bank slots. -/
@[simp] abbrev nslot : Nat := 14
/-- TQ_HI, TQ_LO (R8): bounds of the time-quantum search. -/
@[simp] abbrev tqHi : Nat := 25
@[simp] abbrev tqLo : Nat := 5
/-- BRP_MAX (R8). -/
@[simp] abbrev brpMax : Nat := 1024
/-- PS1_MAX (R8). -/
@[simp] abbrev ps1Max : Nat := 16
/-- PS2_MAX (R8). -/
@[simp] abbrev ps2Max : Nat := 8
/-- RJW_MAX (R8). -/
@[simp] abbrev rjwMax : Nat := 4
/-- TS_RATE_MAX (R8): the largest wished rate at which triple sampling is legal. -/
@[simp] abbrev tsRateMax : Nat := 125000
/-- SID_MAX (R8): the largest standard identifier. -/
@[simp] abbrev sidMax : Nat := 0x7FF
/-- EID_MAX (R8): the largest extended identifier. -/
@[simp] abbrev eidMax : Nat := 0x1FFFFFFF
end Config

/-- ERRBIT (R9, 30_encoding.md R108): the bit positions of the eleven begin-code flags, by flag name. -/
structure ErrBits where
  brpZero  : Nat := 0
  brpBig   : Nat := 1
  ps1Zero  : Nat := 2
  ps1Big   : Nat := 3
  ps2Zero  : Nat := 4
  ps2Big   : Nat := 5
  rjwZero  : Nat := 6
  rjwBig   : Nat := 7
  rjwGtPs2 : Nat := 8
  ts       : Nat := 9
  tooFar   : Nat := 10
  deriving DecidableEq, Repr

/-- The eleven positions in the order R108 lists the flags. -/
def ErrBits.positions (e : ErrBits) : List Nat :=
  [e.brpZero, e.brpBig, e.ps1Zero, e.ps1Big, e.ps2Zero, e.ps2Big, e.rjwZero, e.rjwBig, e.rjwGtPs2, e.ts, e.tooFar]

/-- A run of bits and where it is placed: bits `low + width - 1 : low` of a field stand at bits
`place + width - 1 : place` of a word. -/
structure Segment where
  low   : Nat
  width : Nat
  place : Nat
  deriving DecidableEq, Repr

/-- FLAYOUT (R9, 43_filter_bank.md R213): where every bit of a 16-bit half and of a 32-bit word comes from, and where
halves and words stand in a slot. A slot is read as 64 bits, F_W1 the low 32 and F_W2 the high 32. The defaults are the
spec's, which it marks as general knowledge (log entry 20). -/
structure FilterLayout where
  /-- the 11-bit standard identifier in a half -/
  halfId     : List Segment := [⟨0, 11, 5⟩]
  halfRtr    : Nat := 4
  halfIde    : Nat := 3
  /-- the 29-bit identifier in a word: its 18 least and its 11 most significant bits -/
  wordId     : List Segment := [⟨0, 18, 3⟩, ⟨18, 11, 21⟩]
  wordIde    : Nat := 2
  wordRtr    : Nat := 1
  /-- dual-16 mask: identifier and mask half of filter 1, then of filter 2 -/
  dualMask   : List Nat := [0, 16, 32, 48]
  /-- dual-16 list: the halves of entries 1 to 4 -/
  dualList   : List Nat := [0, 16, 32, 48]
  /-- single-32 mask: identifier word, mask word -/
  singleMask : List Nat := [0, 32]
  /-- single-32 list: the words of entries 1 and 2 -/
  singleList : List Nat := [0, 32]
  deriving DecidableEq, Repr

/-- RXLAYOUT (R9, 60_exceptions.md R287): where each field of a received frame stands in the two status words, read as
64 bits, `rxs0` the low 32 and `rxs1` the high 32. The defaults are the spec's, which it marks as general knowledge (log
entry 20). -/
structure RxLayout where
  /-- the 29-bit extended identifier: its 18 least and its 11 most significant bits -/
  extId : List Segment := [⟨0, 18, 3⟩, ⟨18, 11, 21⟩]
  /-- the 11-bit standard identifier -/
  stdId : List Segment := [⟨0, 11, 21⟩]
  /-- identifier kind -/
  ext   : Nat := 2
  /-- remote flag -/
  rtr   : Nat := 1
  /-- length -/
  len   : List Segment := [⟨0, 4, 32⟩]
  /-- lowest bit of the filter-match index, which is W_FMI bits wide -/
  idx   : Nat := 40
  deriving DecidableEq, Repr

/-- The parameters "the model takes as an argument" (R9). They are fixed for a run: no step changes them. -/
structure Config where
  /-- CLK, Hz: 1 ≤ CLK < 2^32 (`Config.wf`) -/
  clk          : Word
  qmax         : Nat := 65535
  /-- W_IDX: bit width of CAP, RD, CNT, PEAK -/
  wIdx         : Nat := 16
  /-- W_CB: bit width of a callback reference -/
  wCb          : Nat := 32
  /-- W_FMI: bit width of the filter-match index -/
  wFmi         : Nat := 8
  /-- NCB: capacity of each callback array, 14 slots of at most 4 entries -/
  ncb          : Nat := 56
  errBit       : ErrBits := {}
  filterLayout : FilterLayout := {}
  rxLayout     : RxLayout := {}
  directAtomic : Bool := false
  deriving DecidableEq, Repr

/-- What makes the parameters consistent: CLK is not 0 (R9), the begin-code flags stand at distinct bits of RES
("disjoint from those bits", 30_encoding.md R108), every capacity QINIT and SSET admit fits W_IDX bits, the filter-match
index fits the bits word 1 of a packed Frame has above its place (R104), and a callback array has room for 14 slots of 4
entries ("suffices", 10_state.md R36). -/
abbrev Config.wf (c : Config) : Prop :=
  c.clk ≠ 0 ∧ (c.errBit.positions.Nodup ∧ ∀ p ∈ c.errBit.positions, p < 64) ∧
    min 65535 c.qmax < 2 ^ c.wIdx ∧ c.wFmi ≤ 24 ∧ 56 ≤ c.ncb

/-- CLK less one. R9 leaves CLK OPEN: an uninterpreted value, so that nothing can be proved of the clock but its range
(log entry 3). -/
opaque Config.clkLessOne : Fin 4294967295

/-- The parameters of a machine right after power-on: CLK is open, everything else has the spec's default. -/
def Config.atReset : Config := { clk := BitVec.ofNat 32 (Config.clkLessOne.val + 1) }

/-- What a queue slot that nothing has written holds: "unspecified" (10_state.md R61, 20_memory.md R72). The arguments
are the queue number and the slot index (log entry 8). -/
opaque Config.unwrittenSlot : Nat → Nat → Frame

/-- What the n-th host read gives when it reads the write-only register CMD (10_state.md R21 states no value; log
entry 10). -/
opaque Config.cmdReadValue : Nat → Word

end Sys2Proof
end

