-- ==== Sys2Proof/Machine/State.lean ====
section
/-!
DEFINITION. The state of the block and of what it can see (10_state.md), the events it emits (R53), the moves of the
outside parties (70_reset_and_hazards.md R352), the reset state (R60) and the reasons a step can stop.
-/

namespace Sys2Proof
namespace Machine

/-! ### Host port (10_state.md R21 to R26) -/

/-- Four 32-bit registers that hold one Frame in the packing of 30_encoding.md R104: FOP and FRES. -/
structure FrameRegs where
  w0 : Word
  w1 : Word
  w2 : Word
  w3 : Word
  deriving DecidableEq, Repr

/-- The stored flags of STATUS (R24). BUSY is a function of SEQ (R31) and is computed. -/
structure Status where
  ok      : Bool
  refused : Bool
  illegal : Bool
  fvalid  : Bool
  deriving DecidableEq, Repr

/-! ### Settings and TimingConfig (R27, R28) -/

/-- S_RATE, S_TOL, S_RX0SZ, S_RX1SZ, S_TXSZ, S_MODE, S_TXPRIO, S_OC. -/
structure Settings where
  rate   : Word
  tol    : Word
  rx0sz  : BitVec 16
  rx1sz  : BitVec 16
  txsz   : BitVec 16
  mode   : BitVec 2
  txprio : Bool
  oc     : Bool
  deriving DecidableEq, Repr

/-- T_BRP, T_PS1, T_PS2, T_RJW, T_TS, T_OK. -/
structure Timing where
  brp : BitVec 16
  ps1 : BitVec 8
  ps2 : BitVec 8
  rjw : BitVec 8
  ts  : Bool
  ok  : Bool
  deriving DecidableEq, Repr

/-! ### Frame queues (R32) -/

/-- A queue store: the slots that hold a Frame, in canonical form (rising slot index, no repeats; `Memory.wf`). A slot
that is not listed holds no value (R61). One cell is one whole Frame (20_memory.md R70; log entry 9). -/
abbrev Memory := List (Nat × Frame)

/-- The canonical form: slot indices strictly rising. -/
abbrev Memory.wf (m : Memory) : Prop := List.Pairwise (fun x y => x.1 < y.1) m

/-- One queue: CAP, RD, CNT, PEAK, W_IDX bits each as numbers (`Queue.Fits`; log entry 4), and the store. -/
structure Queue where
  cap   : Nat
  rd    : Nat
  cnt   : Nat
  peak  : Nat
  store : Memory
  deriving DecidableEq, Repr

/-! ### Filter bank and callback arrays (R35, R36, R38) -/

/-- F_COUNT, F_W1, F_W2, F_SCALE, F_MODE, F_FIFO. -/
structure FilterBank where
  count : BitVec 4
  w1    : Vector Word 14
  w2    : Vector Word 14
  scale : BitVec 14
  mode  : BitVec 14
  fifo  : BitVec 14
  deriving DecidableEq, Repr

/-- CB0, CB1, DCB0 or DCB1, NCB references of W_CB bits each as numbers, with its length (`CallbackArray.Inv`; log
entry 4). -/
structure CallbackArray where
  refs : List Nat
  len  : Nat
  deriving DecidableEq, Repr

/-! ### Sequencing (R45, R46) -/

/-- D_STATE. -/
inductive DState where
  | uninitialized
  | initializing
  | running
  | stopped
  deriving DecidableEq, Repr

/-- SEQ: idle, or the wait of BEGIN that MAIN stands at. -/
inductive Seq where
  | idle
  /-- 1: waiting for the peripheral to acknowledge entry to its configuration state -/
  | enterConfig
  /-- 2: waiting for it to acknowledge leaving that state -/
  | leaveConfig
  /-- 3: waiting for mailbox 0 to report free -/
  | mailbox0
  deriving DecidableEq, Repr

/-- One of the three hardware mailboxes (00_scope.md R8). -/
inductive Mailbox where
  | mb0
  | mb1
  | mb2
  deriving DecidableEq, Repr

/-- What MAIN holds between two atomic steps of one command, BEGIN apart (60_exceptions.md R285). -/
inductive MainOp where
  | idle
  /-- a direct SEND between TEST and WRITE (44_driver.md R252) -/
  | sendWrite (m : Mailbox) (f : Frame)
  /-- a dispatch between POP and CALL (R255); `combined` when the command is DISP -/
  | dispCall (k : FifoId) (f : Frame) (combined : Bool)
  /-- DISP after its dispatch of FIFO 0 (R257); whether that yielded a frame -/
  | dispSecond (yielded : Bool)
  deriving DecidableEq, Repr

/-! ### The sampled inputs (R50) -/

/-- The inputs of one receive FIFO. -/
structure RxInputs where
  fmp  : Bool
  full : Bool
  ovr  : Bool
  rxs0 : Word
  rxs1 : Word
  rxd0 : Word
  rxd1 : Word
  deriving DecidableEq, Repr

/-- The sampled inputs, owned and changed by ENV. -/
structure Env where
  inak  : Bool
  tme0  : Bool
  tme1  : Bool
  tme2  : Bool
  code  : BitVec 2
  txc   : Bool
  fifo0 : RxInputs
  fifo1 : RxInputs
  deriving DecidableEq, Repr

/-! ### Output events (R53) -/

/-- One record of `P_FILTERS`. -/
structure Bank where
  w1    : Word
  w2    : Word
  scale : Bool
  mode  : Bool
  fifo  : Bool
  deriving DecidableEq, Repr

/-- The seven interrupt enables of 44_driver.md R246. -/
inductive IrqEnable where
  | fmp0
  | full0
  | ovr0
  | fmp1
  | full1
  | ovr1
  | tme
  deriving DecidableEq, Repr

/-- The events of the peripheral port and of the callback port. `P_TIMING` carries its fields "as numbers" (R244). -/
inductive Event where
  | pClkEn
  | pReset
  | pPinCfg (oc : Bool)
  | pCfgEnter
  | pTiming (brp ps1 ps2 rjw ts mode txprio : Nat)
  | pFilters (banks : List Bank)
  | pIer (set : List IrqEnable)
  | pCfgLeave
  | nUnmask
  | nMask
  | pMbWrite (m : Mailbox) (f : Frame)
  | pRxRelease (k : FifoId)
  | pClrFull (k : FifoId)
  | pClrOvr (k : FifoId)
  | pClrTxc
  | cbInvoke (k : FifoId) (index : Nat) (callback : Nat) (f : Frame)
  deriving DecidableEq, Repr

/-! ### The moves of the outside parties (70_reset_and_hazards.md R351, R352) -/

/-- A host action: "a host register read, a host register write, or a write of a command word to CMD", which is a write
of register 0x00. -/
inductive HostAction where
  | read (reg : Nat)
  | write (reg : Nat) (w : Word)
  deriving DecidableEq, Repr

/-- A move of ENV: the liberties of R352. Its "never" lines have no move (log entry 7). -/
inductive EnvMove where
  /-- all inputs at once, while the block assumes nothing about them (10_state.md R62; log entry 5) -/
  | settle (e : Env)
  | setInak (b : Bool)
  /-- `tme[m]` from 0 to 1, with `txc <- 1` (R51 a) -/
  | freeMailbox (m : Mailbox)
  | raiseTxc
  | setCode (c : BitVec 2)
  /-- new head words of a FIFO, only while `fmp[k] = 0` (R51 c) -/
  | setHead (k : FifoId) (rxs0 rxs1 rxd0 rxd1 : Word)
  | raisePending (k : FifoId)
  | raiseFull (k : FifoId)
  | raiseOverrun (k : FifoId)
  deriving DecidableEq, Repr

/-- Who takes the next atomic step. -/
inductive Turn where
  /-- MAIN: the next step of the command in progress, or the next host action -/
  | main
  /-- the platform delivers a vector code -/
  | strobe (v : BitVec 2)
  | env (m : EnvMove)
  /-- reset is asserted (R322) -/
  | reset
  deriving DecidableEq, Repr

/-! ### The state -/

/-- Everything 10_state.md R20 gives the block, the sampled inputs, the observable outputs, and the model's own three
fields `cfg`, `host` and `turns` (log entries 1, 3, 16). -/
structure State where
  /-- the parameters of 00_scope.md R9; no step changes them -/
  cfg      : Config
  /-- A0 .. A11 -/
  a        : Vector Word 12
  fop      : FrameRegs
  fres     : FrameRegs
  status   : Status
  res      : BitVec 64
  settings : Settings
  timing   : Timing
  rxq0     : Queue
  rxq1     : Queue
  txq      : Queue
  bank     : FilterBank
  cb0      : CallbackArray
  cb1      : CallbackArray
  dcb0     : CallbackArray
  dcb1     : CallbackArray
  dState   : DState
  seq      : Seq
  irqEn    : BitVec 3
  op       : MainOp
  env      : Env
  /-- events emitted so far, oldest first -/
  events   : List Event
  /-- values returned to host register reads so far, oldest first -/
  reads    : List Word
  /-- host actions still to be issued -/
  host     : List HostAction
  /-- whose step comes next; when empty, MAIN's -/
  turns    : List Turn
  deriving DecidableEq, Repr

/-! ### Reset values (R60) -/

/-- A queue that is not allocated: the state at reset, after QFREE and after END (R34). -/
def Queue.unallocated : Queue := { cap := 0, rd := 0, cnt := 0, peak := 0, store := [] }

def FrameRegs.zero : FrameRegs := ⟨0, 0, 0, 0⟩

/-- An empty callback array of capacity NCB. -/
def CallbackArray.empty (ncb : Nat) : CallbackArray := { refs := List.replicate ncb 0, len := 0 }

def FilterBank.empty : FilterBank :=
  { count := 0, w1 := Vector.replicate 14 0, w2 := Vector.replicate 14 0, scale := 0, mode := 0, fifo := 0 }

def RxInputs.zero : RxInputs := ⟨false, false, false, 0, 0, 0, 0⟩

/-- The inputs in `State.reset`: the spec gives none (R62); DESIGN CHOICE all zero (log entry 5). ENV may replace them
(`EnvMove.settle`) before the block samples any of them. -/
def Env.zero : Env :=
  { inak := false, tme0 := false, tme1 := false, tme2 := false, code := 0, txc := false,
    fifo0 := RxInputs.zero, fifo1 := RxInputs.zero }

/-- The block with the given parameters right after reset (R60, 70_reset_and_hazards.md R320): every register 0, the
three queues unallocated, the bank empty, the driver uninitialized, the handlers gated off. Nothing is scheduled. -/
def State.resetWith (c : Config) : State :=
  { cfg := c
    a := Vector.replicate 12 0
    fop := FrameRegs.zero
    fres := FrameRegs.zero
    status := ⟨false, false, false, false⟩
    res := 0
    settings := { rate := 0, tol := 0, rx0sz := 0, rx1sz := 0, txsz := 0, mode := 0, txprio := false, oc := false }
    timing := { brp := 0, ps1 := 0, ps2 := 0, rjw := 0, ts := false, ok := false }
    rxq0 := Queue.unallocated
    rxq1 := Queue.unallocated
    txq := Queue.unallocated
    bank := FilterBank.empty
    cb0 := CallbackArray.empty c.ncb
    cb1 := CallbackArray.empty c.ncb
    dcb0 := CallbackArray.empty c.ncb
    dcb1 := CallbackArray.empty c.ncb
    dState := .uninitialized
    seq := .idle
    irqEn := 0
    op := .idle
    env := Env.zero
    events := []
    reads := []
    host := []
    turns := [] }

/-- The machine right after power-on. -/
def State.reset : State := State.resetWith Config.atReset

/-! ### Why a step can stop -/

/-- The complete list of faults (60_exceptions.md R299). A fault is the spec's: "a state the source gives no meaning
to". The step that raises it has no effect (70_reset_and_hazards.md R336). -/
inductive Fault where
  /-- step WRITE of a direct SEND finds its mailbox no longer free (44_driver.md R252): raised by MAIN. Safe: the model
  stops where the spec gives no meaning. -/
  | mailboxTaken
  /-- H_TX finds `code = 3` or `tme[code] = 0` while some mailbox is free (60_exceptions.md R290): raised by ISR_TX.
  Safe: the model stops where the spec gives no meaning. -/
  | badCode
  deriving DecidableEq, Repr

/-- Reasons for no meaning. A refused COMMAND of the spec (60_exceptions.md R284) is no refusal in this sense: it is a
next state with STATUS.REFUSED set. -/
inductive Refusal where
  /-- an instruction this model gives no meaning to: raised by `exec` alone, and by no arm of it now. Safe. -/
  | notModelled (mnemonic : String)
  deriving DecidableEq, Repr

end Machine
end Sys2Proof
end

