-- ==== Sys2Proof/Machine/Ops.lean ====
section
/-!
DEFINITION. The named operations: queue slots and queues, one home for each register, events and what they do to the
sampled inputs, the outcomes of a command, handler entry.
-/

namespace Sys2Proof
namespace Machine

/-- What a meaning answers. -/
abbrev Result := Host.Outcome State Fault Refusal

/-! ### Queue slots (20_memory.md R72, R73) -/

/-- `MemRead` on a store: the Frame last written to slot `i`, none where nothing was written. -/
def memRead : Memory → Nat → Option Frame
  | [], _ => none
  | (j, g) :: rest, i => if i = j then some g else memRead rest i

/-- `MemWrite`: slot `i` holds `f` afterwards, every other slot as before; the form stays canonical. -/
def memWrite : Memory → Nat → Frame → Memory
  | [], i, f => [(i, f)]
  | (j, g) :: rest, i, f =>
    if i < j then (i, f) :: (j, g) :: rest
    else if i = j then (i, f) :: rest
    else (j, g) :: memWrite rest i f

/-! ### Queues (41_frame_queue.md) -/

/-- What a register of `width` bits holds of a number written to it. -/
def fit (width n : Nat) : Nat := n % 2 ^ width

/-- The queue `initWithSize(n)` leaves (R141): counters 0, slots unspecified. -/
def Queue.init (n : Nat) : Queue := { cap := n, rd := 0, cnt := 0, peak := 0, store := [] }

/-- The tail (store) index of R74: the sum exact, reduced once. -/
def Queue.tail (q : Queue) : Nat := (q.rd + q.cnt) % q.cap

/-- The Frame in slot `i`: what was written there, else the unspecified value of R61 (log entry 8). -/
def Queue.slot (id : QueueId) (q : Queue) (i : Nat) : Frame :=
  (memRead q.store i).getD (Config.unwrittenSlot id.code i)

/-- `append(q, F)` (R140): none when the queue is full, which changes nothing. -/
def Queue.append (q : Queue) (f : Frame) : Option Queue :=
  if q.cnt = q.cap then none
  else
    some { q with
      store := memWrite q.store q.tail f
      cnt := q.cnt + 1
      peak := max q.peak (q.cnt + 1) }

/-- `remove(q)` (R149): the oldest Frame and the queue without it; none when the queue is empty. -/
def Queue.remove (id : QueueId) (q : Queue) : Option (Frame × Queue) :=
  if q.cnt = 0 then none
  else
    some (q.slot id q.rd, { q with rd := (q.rd + 1) % q.cap, cnt := q.cnt - 1 })

/-- `resetPeakCount` (R145). -/
def Queue.resetPeak (q : Queue) : Queue := { q with peak := q.cnt }

/-! ### Accessors: one home for each register -/

def State.queue (s : State) : QueueId → Queue
  | .rxq0 => s.rxq0
  | .rxq1 => s.rxq1
  | .txq => s.txq

def State.setQueue (s : State) (id : QueueId) (q : Queue) : State :=
  match id with
  | .rxq0 => { s with rxq0 := q }
  | .rxq1 => { s with rxq1 := q }
  | .txq => { s with txq := q }

/-- The receive queue of a FIFO (10_state.md R32). -/
def rxQueueOf : FifoId → QueueId
  | .fifo0 => .rxq0
  | .fifo1 => .rxq1

def State.cb (s : State) : FifoId → CallbackArray
  | .fifo0 => s.cb0
  | .fifo1 => s.cb1

def State.setCb (s : State) (k : FifoId) (c : CallbackArray) : State :=
  match k with
  | .fifo0 => { s with cb0 := c }
  | .fifo1 => { s with cb1 := c }

def State.dcb (s : State) : FifoId → CallbackArray
  | .fifo0 => s.dcb0
  | .fifo1 => s.dcb1

def Env.tme (e : Env) : Mailbox → Bool
  | .mb0 => e.tme0
  | .mb1 => e.tme1
  | .mb2 => e.tme2

def Env.setTme (e : Env) (m : Mailbox) (b : Bool) : Env :=
  match m with
  | .mb0 => { e with tme0 := b }
  | .mb1 => { e with tme1 := b }
  | .mb2 => { e with tme2 := b }

def Env.rx (e : Env) : FifoId → RxInputs
  | .fifo0 => e.fifo0
  | .fifo1 => e.fifo1

def Env.setRx (e : Env) (k : FifoId) (r : RxInputs) : Env :=
  match k with
  | .fifo0 => { e with fifo0 := r }
  | .fifo1 => { e with fifo1 := r }

/-- `A[i]` (R22). -/
def State.arg (s : State) (i : Nat) : Word := s.a[i]?.getD 0

/-! ### Events (10_state.md R53) and the inputs they clear (R51; log entry 6) -/

/-- What emitting an event does to the sampled inputs: `P_MBWRITE(m)` makes `tme[m]` 0 (R51 a), `P_CLRFULL`,
`P_CLROVR`, `P_CLRTXC` clear their flag, `P_RXRELEASE(k)` drops the head of FIFO k (R51 d). -/
def Env.answer (e : Env) : Event → Env
  | .pMbWrite m _ => e.setTme m false
  | .pRxRelease k => e.setRx k { e.rx k with fmp := false }
  | .pClrFull k => e.setRx k { e.rx k with full := false }
  | .pClrOvr k => e.setRx k { e.rx k with ovr := false }
  | .pClrTxc => { e with txc := false }
  | .pClkEn | .pReset | .pPinCfg _ | .pCfgEnter | .pTiming _ _ _ _ _ _ _ | .pFilters _ | .pIer _ | .pCfgLeave
  | .nUnmask | .nMask | .cbInvoke _ _ _ _ => e

/-- `emit E`: appends the event to the output trace (00_scope.md R11). -/
def State.emit (s : State) (e : Event) : State :=
  { s with events := s.events ++ [e], env := s.env.answer e }

/-- Several events, in order. -/
def State.emitAll (s : State) (es : List Event) : State := es.foldl State.emit s

/-! ### Outcomes of a command (10_state.md R24, R25) -/

/-- `status(ok, fvalid) ; RES <- r`: the end of an executed command. -/
def State.finish (s : State) (ok fvalid : Bool) (r : BitVec 64) : State :=
  { s with status := ⟨ok, false, false, fvalid⟩, res := r }

/-- The reason tags of 60_exceptions.md R284: "for the reader; the block reports only the REFUSED bit". -/
inductive RefusedBecause where
  | owned
  | tooBig
  | zeroRate
  | readOnly
  | range
  | zeroDivisor
  | index
  | state
  deriving DecidableEq, Repr

/-- `raise Refused(reason)` (R284): changes only STATUS. -/
def State.refuse (s : State) (_why : RefusedBecause) : State :=
  { s with status := ⟨false, true, false, false⟩ }

/-- `raise Illegal` (30_encoding.md R125): changes only STATUS. -/
def State.illegal (s : State) : State := { s with status := ⟨false, false, true, false⟩ }

/-! ### Handler entry and return (60_exceptions.md R285, R291, R292) -/

/-- Entering a handler: it has a step only while its bit of IRQ_EN is 1 (10_state.md R47); entry saves nothing and
changes no register, and return restores nothing, so a handler is its body. -/
def enterHandler (bit : Nat) (body : State → Result) (s : State) : Result :=
  if s.irqEn.getLsbD bit then body s else .next s

/-- MAIN holds a command in progress: BEGIN at a wait, or a two-step command between its steps (R353 P2). -/
def State.busy (s : State) : Bool := !(s.seq == .idle && s.op == .idle)

/-- The host may use the queue-mutating commands: D_STATE is 0 or 3 (41_frame_queue.md R141; D6). -/
def State.queuesFree (s : State) : Bool := s.dState == .uninitialized || s.dState == .stopped

/-- Admission of the driver commands (44_driver.md R260). -/
def State.isRunning (s : State) : Bool := s.dState == .running

end Machine
end Sys2Proof
end

