-- ==== Sys2Proof/Machine/Operands.lean ====
section
/-!
DEFINITION. The operand forms: the Frame packing (30_encoding.md R104), the selectors (10_state.md R30, R111), the filter
words (43_filter_bank.md R213, R214), the receive words (60_exceptions.md R287), payload bytes (20_memory.md R77).
-/

namespace Sys2Proof
namespace Machine

/-! ### Frames in registers (R104) -/

/-- The Frame held in four registers, reserved bits dropped. The index is the W_FMI bits from bit 8 of word 1 up (R104 for
W_FMI = 8; log entry 4). -/
def FrameRegs.unpack (wFmi : Nat) (r : FrameRegs) : Frame :=
  { id := r.w0.extractLsb' 0 29
    ext := r.w0.getLsbD 29
    rtr := r.w0.getLsbD 30
    len := r.w1.extractLsb' 0 4
    idx := fit wFmi (r.w1.toNat / 2 ^ 8)
    data0 := r.w2
    data1 := r.w3 }

/-- The packing of a Frame, reserved bits 0. -/
def FrameRegs.pack (wFmi : Nat) (f : Frame) : FrameRegs :=
  { w0 := 0#1 ++ BitVec.ofBool f.rtr ++ BitVec.ofBool f.ext ++ f.id
    w1 := BitVec.ofNat 32 (f.len.toNat + fit wFmi f.idx * 2 ^ 8)
    w2 := f.data0
    w3 := f.data1 }

/-- The Frame operand of QAPPEND and SEND: FOP unpacked (R105). -/
def State.operandFrame (s : State) : Frame := s.fop.unpack s.cfg.wFmi

/-- The callback operand in `A[i]`: an element keeps W_CB bits (10_state.md R36). -/
def State.callbackArg (s : State) (i : Nat) : Nat := fit s.cfg.wCb (s.arg i).toNat

/-- Payload byte n (n = 0 first on the bus): little-endian within each word, `data0` first (R77). -/
def payloadByte (f : Frame) (n : Nat) : BitVec 8 :=
  if n < 4 then f.data0.extractLsb' (8 * (n % 4)) 8 else f.data1.extractLsb' (8 * (n % 4)) 8

/-! ### Segments of a layout (00_scope.md R9) -/

/-- The bits of `v` placed as the segments say. -/
def scatter : List Segment → Word → Word
  | [], _ => 0
  | g :: rest, v => ((v.extractLsb' g.low g.width).setWidth 32 <<< g.place) ||| scatter rest v

/-- The field the segments spread over `w`, put together again. -/
def gather : List Segment → BitVec 64 → BitVec 64
  | [], _ => 0
  | g :: rest, w => ((w.extractLsb' g.place g.width).setWidth 64 <<< g.low) ||| gather rest w

/-- Items at their places in the 64 bits of a slot (43_filter_bank.md R213, "Placement in a slot"). -/
def slotBits : List Nat → List Word → BitVec 64
  | p :: ps, x :: xs => (x.setWidth 64 <<< p) ||| slotBits ps xs
  | _, _ => 0

/-! ### Receive status words (R287) -/

/-- `decode(s0, s1, d0, d1)`. -/
def decodeRx (l : RxLayout) (wFmi : Nat) (s0 s1 d0 d1 : Word) : Frame :=
  { id := (gather (if (s1 ++ s0).getLsbD l.ext then l.extId else l.stdId) (s1 ++ s0)).setWidth 29
    ext := (s1 ++ s0).getLsbD l.ext
    rtr := (s1 ++ s0).getLsbD l.rtr
    len := (gather l.len (s1 ++ s0)).setWidth 4
    idx := fit wFmi ((s1 ++ s0).toNat / 2 ^ l.idx)
    data0 := d0
    data1 := d1 }

/-! ### Filter words (R213) -/

/-- `H(v, r, e, 0)`: a 16-bit half, zero-extended. -/
def filterHalf (l : FilterLayout) (v : Word) (r e : Bool) : Word :=
  ((scatter l.halfId v ||| ((BitVec.ofBool r).setWidth 32 <<< l.halfRtr) |||
    ((BitVec.ofBool e).setWidth 32 <<< l.halfIde)).setWidth 16).setWidth 32

/-- `X(v, e, r)`: a 32-bit word. -/
def filterWord (l : FilterLayout) (v : Word) (e r : Bool) : Word :=
  scatter l.wordId v ||| ((BitVec.ofBool e).setWidth 32 <<< l.wordIde) |||
    ((BitVec.ofBool r).setWidth 32 <<< l.wordRtr)

/-! ### Selectors of TSET and TGET (10_state.md R30) -/

/-- The selected timing register, zero-extended. -/
def Timing.get (t : Timing) : TField → BitVec 64
  | .brp => t.brp.setWidth 64
  | .ps1 => t.ps1.setWidth 64
  | .ps2 => t.ps2.setWidth 64
  | .rjw => t.rjw.setWidth 64
  | .ts => (BitVec.ofBool t.ts).setWidth 64
  | .ok => (BitVec.ofBool t.ok).setWidth 64

/-- The largest value TSET may write to a field; none where the field is read-only. -/
def timingLimit : TField → Option Nat
  | .brp => some 65535
  | .ps1 => some 255
  | .ps2 => some 255
  | .rjw => some 255
  | .ts => some 1
  | .ok => none

/-- The timing registers with one of them written; T_OK is not writable. -/
def Timing.set (t : Timing) (v : Nat) : TField → Timing
  | .brp => { t with brp := BitVec.ofNat 16 v }
  | .ps1 => { t with ps1 := BitVec.ofNat 8 v }
  | .ps2 => { t with ps2 := BitVec.ofNat 8 v }
  | .rjw => { t with rjw := BitVec.ofNat 8 v }
  | .ts => { t with ts := v == 1 }
  | .ok => t

/-! ### Selectors of SSET and SGET -/

def Settings.get (g : Settings) : SField → BitVec 64
  | .rx0sz => g.rx0sz.setWidth 64
  | .rx1sz => g.rx1sz.setWidth 64
  | .txsz => g.txsz.setWidth 64
  | .mode => g.mode.setWidth 64
  | .txprio => (BitVec.ofBool g.txprio).setWidth 64
  | .oc => (BitVec.ofBool g.oc).setWidth 64
  | .rate => g.rate.setWidth 64
  | .tol => g.tol.setWidth 64

/-- The largest value SSET may write to a field: a queue size is at most min(65535, QMAX). -/
def settingLimit (qmax : Nat) : SField → Option Nat
  | .rx0sz => some (min 65535 qmax)
  | .rx1sz => some (min 65535 qmax)
  | .txsz => some (min 65535 qmax)
  | .mode => some 3
  | .txprio => some 1
  | .oc => some 1
  | .rate => none
  | .tol => none

def Settings.set (g : Settings) (v : Nat) : SField → Settings
  | .rx0sz => { g with rx0sz := BitVec.ofNat 16 v }
  | .rx1sz => { g with rx1sz := BitVec.ofNat 16 v }
  | .txsz => { g with txsz := BitVec.ofNat 16 v }
  | .mode => { g with mode := BitVec.ofNat 2 v }
  | .txprio => { g with txprio := v == 1 }
  | .oc => { g with oc := v == 1 }
  | .rate => g
  | .tol => g

/-! ### FGET (30_encoding.md R111, 43_filter_bank.md R225) -/

/-- How many indices the selected object has. For the callback arrays R225 says index ≤ 55, which is NCB - 1 for the
default NCB = 56; DESIGN CHOICE (log entry 4): for another NCB the bound is NCB - 1, the end of the array (R36). -/
def fgetSize (ncb : Nat) : FWhat → Nat
  | .w1 => 14
  | .w2 => 14
  | .scale => 1
  | .mode => 1
  | .fifo => 1
  | .cb0Len => 1
  | .cb1Len => 1
  | .cb0 => ncb
  | .cb1 => ncb

/-- The selected word, bitmap, length or callback reference. -/
def State.filterRead (s : State) (what : FWhat) (i : Nat) : BitVec 64 :=
  match what with
  | .w1 => (s.bank.w1[i]?.getD 0).setWidth 64
  | .w2 => (s.bank.w2[i]?.getD 0).setWidth 64
  | .scale => s.bank.scale.setWidth 64
  | .mode => s.bank.mode.setWidth 64
  | .fifo => s.bank.fifo.setWidth 64
  | .cb0Len => BitVec.ofNat 64 s.cb0.len
  | .cb1Len => BitVec.ofNat 64 s.cb1.len
  | .cb0 => BitVec.ofNat 64 (s.cb0.refs[i]?.getD 0)
  | .cb1 => BitVec.ofNat 64 (s.cb1.refs[i]?.getD 0)

end Machine
end Sys2Proof
end

