-- ==== Sys2Proof/Machine/Flags.lean ====
section
/-!
DEFINITION. The computed flags and codes: STATUS as the host reads it (10_state.md R24), the consistency mask and the
begin code (42_bit_timing.md R185, 44_driver.md R241), D_STATE and SEQ codes (10_state.md R45, R46), the interrupt
request lines (R52).
-/

namespace Sys2Proof
namespace Machine

/-- SEQ as a number (R46). -/
def Seq.code : Seq → Nat
  | .idle => 0
  | .enterConfig => 1
  | .leaveConfig => 2
  | .mailbox0 => 3

/-- D_STATE as a number (R45). -/
def DState.code : DState → Nat
  | .uninitialized => 0
  | .initializing => 1
  | .running => 2
  | .stopped => 3

/-- STATUS.BUSY (R24): 1 while SEQ ≠ 0. -/
def State.statusBusy (s : State) : Bool := s.seq != .idle

/-- STATUS as a word: OK, REFUSED, ILLEGAL, BUSY, FVALID from bit 0 up, the rest 0 (R24). -/
def State.statusWord (s : State) : Word :=
  0#27 ++ BitVec.ofBool s.status.fvalid ++ BitVec.ofBool s.statusBusy ++ BitVec.ofBool s.status.illegal ++
    BitVec.ofBool s.status.refused ++ BitVec.ofBool s.status.ok

/-- DSTATE's result (30_encoding.md R110): `D_STATE | (SEQ << 4) | (IRQ_EN << 8)`. -/
def State.driverWord (s : State) : BitVec 64 :=
  BitVec.ofNat 64 s.dState.code ||| (BitVec.ofNat 64 s.seq.code <<< 4) ||| (s.irqEn.setWidth 64 <<< 8)

/-- One flag of the begin code: its bit when the condition holds. -/
def flagAt (pos : Nat) (cond : Bool) : BitVec 64 := if cond then 1#64 <<< pos else 0

/-- The consistency mask (R185): ten flags, with the guard `T_PS2 ≠ 0` on the ninth. -/
def consistencyMask (e : ErrBits) (t : Timing) (rate : Word) : BitVec 64 :=
  flagAt e.brpZero (t.brp.toNat == 0) |||
  flagAt e.brpBig (decide (Config.brpMax < t.brp.toNat)) |||
  flagAt e.ps1Zero (t.ps1.toNat == 0) |||
  flagAt e.ps1Big (decide (Config.ps1Max < t.ps1.toNat)) |||
  flagAt e.ps2Zero (t.ps2.toNat == 0) |||
  flagAt e.ps2Big (decide (Config.ps2Max < t.ps2.toNat)) |||
  flagAt e.rjwZero (t.rjw.toNat == 0) |||
  flagAt e.rjwBig (decide (Config.rjwMax < t.rjw.toNat)) |||
  flagAt e.rjwGtPs2 (t.ps2.toNat != 0 && decide (t.ps2.toNat < t.rjw.toNat)) |||
  flagAt e.ts (t.ts && (decide (Config.tsRateMax < rate.toNat) || t.ps1.toNat == 1))

/-- BEGIN's code (R241): the mask, and E_TOO_FAR when T_OK = 0. -/
def beginCode (e : ErrBits) (t : Timing) (rate : Word) : BitVec 64 :=
  consistencyMask e t rate ||| flagAt e.tooFar (!t.ok)

/-! ### Interrupt request lines (R52) -/

def State.irqRx0 (s : State) : Bool :=
  s.irqEn.getLsbD 0 && (s.env.fifo0.fmp || s.env.fifo0.full || s.env.fifo0.ovr)

def State.irqRx1 (s : State) : Bool :=
  s.irqEn.getLsbD 1 && (s.env.fifo1.fmp || s.env.fifo1.full || s.env.fifo1.ovr)

def State.irqTx (s : State) : Bool := s.irqEn.getLsbD 2 && s.env.txc

end Machine
end Sys2Proof
end

