-- ==== Sys2Proof/Machine/BitTiming.lean ====
section
/-!
DEFINITION. The BT commands (42_bit_timing.md R170 to R195). All arithmetic is exact on naturals, `/` is floor (R195).
-/

namespace Sys2Proof
namespace Machine

/-! ### The search (R172) -/

/-- The best pair seen so far; no error yet when every candidate was skipped. -/
structure Best where
  err : Option Nat
  brp : Nat
  tq  : Nat
  deriving DecidableEq, Repr

/-- Before the first candidate: the fallback pair (1024, 25). -/
def Best.start : Best := { err := none, brp := Config.brpMax, tq := Config.tqHi }

/-- A candidate with error `e` replaces the best pair when it is the first or strictly smaller. -/
def Best.offer (b : Best) (e brp tq : Nat) : Best :=
  match b.err with
  | none => { err := some e, brp := brp, tq := tq }
  | some e0 => if e < e0 then { err := some e, brp := brp, tq := tq } else b

/-- The two candidates of one TQ, the lower first; one outside 1 .. 1024 is skipped. -/
def Best.tryTq (clk rate : Nat) (b : Best) (tq : Nat) : Best :=
  let p := clk / (rate * tq)
  let b1 := if 1 ≤ p ∧ p ≤ Config.brpMax then b.offer (clk - rate * tq * p) p tq else b
  if p + 1 ≤ Config.brpMax then b1.offer (rate * tq * (p + 1) - clk) (p + 1) tq else b1

/-- TQ = 25, 24, ..., 5. -/
def tqList : List Nat :=
  [25, 24, 23, 22, 21, 20, 19, 18, 17, 16, 15, 14, 13, 12, 11, 10, 9, 8, 7, 6, 5]

/-- `search(CLK, rate)`. -/
def search (clk rate : Nat) : Best := tqList.foldl (Best.tryTq clk rate) Best.start

/-! ### Segments and the close-enough flag (R174, R176) -/

/-- Phase segment 2 of a TQ. -/
def segment2 (tq : Nat) : Nat := 1 + (2 * tq) / 7

/-- Phase segment 1 of a TQ. -/
def segment1 (tq : Nat) : Nat := tq - segment2 tq - 1

/-- `|a - b|`. -/
def absDiff (a b : Nat) : Nat := if a ≤ b then b - a else a - b

/-- R176, with W = rate·tq·brp: the relative error is at most `tol` parts per million. -/
def closeEnough (clk rate tol brp tq : Nat) : Bool :=
  decide (absDiff clk (rate * tq * brp) * 1000000 ≤ rate * tq * brp * tol)

/-- The TimingConfig that `resolve(rate, tolerance)` computes from (CLK, rate, tolerance) alone (R170, R171). -/
def resolveTiming (clk rate tol : Nat) : Timing :=
  let b := search clk rate
  let ps2 := segment2 b.tq
  let ps1 := segment1 b.tq
  { brp := BitVec.ofNat 16 b.brp
    ps1 := BitVec.ofNat 8 ps1
    ps2 := BitVec.ofNat 8 ps2
    rjw := BitVec.ofNat 8 (min ps2 Config.rjwMax)
    ts := decide (rate ≤ Config.tsRateMax ∧ 1 < ps1)
    ok := closeEnough clk rate tol b.brp b.tq }

/-- A boolean result in RES: 0 or 1. -/
def resBool (b : Bool) : BitVec 64 := (BitVec.ofBool b).setWidth 64

/-- RESOLVE (R171): rate = A0, tolerance = A1; rate 0 is refused. -/
def execResolve (s : State) : Result :=
  if s.arg 0 = 0 then .next (s.refuse .zeroRate)
  else
    let t := resolveTiming s.cfg.clk.toNat (s.arg 0).toNat (s.arg 1).toNat
    .next ({ s with
      settings := { s.settings with rate := s.arg 0, tol := s.arg 1 }
      timing := t }.finish t.ok false (resBool t.ok))

/-! ### Register access (R180 to R183) -/

/-- TSET field, value (R180): T_OK and a value above the field's width are refused. -/
def execTset (f : TField) (v : Nat) (s : State) : Result :=
  match timingLimit f with
  | none => .next (s.refuse .readOnly)
  | some hi =>
    if hi < v then .next (s.refuse .range)
    else .next ({ s with timing := s.timing.set v f }.finish true false 0)

/-- TGET field (R181). -/
def execTget (f : TField) (s : State) : Result := .next (s.finish true false (s.timing.get f))

/-- SSET field, value (R182): S_RATE, S_TOL and a value outside the field's range are refused. -/
def execSset (f : SField) (v : Nat) (s : State) : Result :=
  match settingLimit s.cfg.qmax f with
  | none => .next (s.refuse .readOnly)
  | some hi =>
    if hi < v then .next (s.refuse .range)
    else .next ({ s with settings := s.settings.set v f }.finish true false 0)

/-- SGET field (R183). -/
def execSget (f : SField) (s : State) : Result := .next (s.finish true false (s.settings.get f))

/-! ### The check and the queries (R185 to R193) -/

/-- TCHECK (R185). -/
def execTcheck (s : State) : Result :=
  let m := consistencyMask s.cfg.errBit s.timing s.settings.rate
  .next (s.finish (m == 0) false m)

/-- The bit time of the configuration as it stands, in quanta (R189). -/
def Timing.tq (t : Timing) : Nat := 1 + t.ps1.toNat + t.ps2.toNat

/-- W of R192: the clock that would give exactly the wished rate. -/
def State.wishedClock (s : State) : Nat := s.settings.rate.toNat * s.timing.tq * s.timing.brp.toNat

/-- TRATE (R190): refused when T_BRP = 0. -/
def execTrate (s : State) : Result :=
  if s.timing.brp = 0 then .next (s.refuse .zeroDivisor)
  else .next (s.finish true false (BitVec.ofNat 64 (s.cfg.clk.toNat / (s.timing.brp.toNat * s.timing.tq))))

/-- TEXACT (R191). -/
def execTexact (s : State) : Result :=
  let x := s.cfg.clk.toNat == s.timing.brp.toNat * s.settings.rate.toNat * s.timing.tq
  .next (s.finish x false (resBool x))

/-- TPPM (R192): refused when S_RATE = 0 or T_BRP = 0. -/
def execTppm (s : State) : Result :=
  if s.settings.rate = 0 ∨ s.timing.brp = 0 then .next (s.refuse .zeroDivisor)
  else
    .next (s.finish true false
      (BitVec.ofNat 64 (absDiff s.cfg.clk.toNat s.wishedClock * 1000000 / s.wishedClock)))

/-- TSAMPLE (R193): the multiplication by 100 first (90_conflicts.md C10). -/
def execTsample (s : State) : Result :=
  .next (s.finish true false (BitVec.ofNat 64 ((1 + s.timing.ps1.toNat) * 100 / s.timing.tq)))

end Machine
end Sys2Proof
end

