-- ==== Sys2Proof/Machine/Queues.lean ====
section
/-!
DEFINITION. The FQ commands (41_frame_queue.md R141 to R148).
-/

namespace Sys2Proof
namespace Machine

/-- QINIT q, n (R141): refused while the driver owns the queues or when n > QMAX; n = 0 is accepted. -/
def execQinit (q : QueueId) (n : Nat) (s : State) : Result :=
  if !s.queuesFree then .next (s.refuse .owned)
  else if s.cfg.qmax < n then .next (s.refuse .tooBig)
  else .next ((s.setQueue q (Queue.init (fit s.cfg.wIdx n))).finish true false 0)

/-- QAPPEND q (R142): appends the Frame of FOP; a full queue gives OK = 0 and changes nothing else. -/
def execQappend (q : QueueId) (s : State) : Result :=
  if !s.queuesFree then .next (s.refuse .owned)
  else
    match (s.queue q).append s.operandFrame with
    | none => .next (s.finish false false 0)
    | some q' => .next ((s.setQueue q q').finish true false 0)

/-- The body of QREMOVE and RECVk (R143, 44_driver.md R254): a removed Frame goes to FRES; an empty queue gives OK = 0
and leaves FRES. -/
def removeToFres (q : QueueId) (s : State) : State :=
  match (s.queue q).remove q with
  | none => s.finish false false 0
  | some (f, q') => { (s.setQueue q q') with fres := FrameRegs.pack s.cfg.wFmi f }.finish true true 0

/-- QREMOVE q (R143). -/
def execQremove (q : QueueId) (s : State) : Result :=
  if !s.queuesFree then .next (s.refuse .owned) else .next (removeToFres q s)

/-- QFREE q (R144). -/
def execQfree (q : QueueId) (s : State) : Result :=
  if !s.queuesFree then .next (s.refuse .owned)
  else .next ((s.setQueue q Queue.unallocated).finish true false 0)

/-- QRSTPEAK q (R145): admitted in any D_STATE. -/
def execQrstpeak (q : QueueId) (s : State) : Result :=
  .next ((s.setQueue q (s.queue q).resetPeak).finish true false 0)

/-- QCOUNT q (R146). -/
def execQcount (q : QueueId) (s : State) : Result :=
  .next (s.finish true false (BitVec.ofNat 64 (s.queue q).cnt))

/-- QPEAK q (R147). -/
def execQpeak (q : QueueId) (s : State) : Result :=
  .next (s.finish true false (BitVec.ofNat 64 (s.queue q).peak))

/-- QCAP q (R148). -/
def execQcap (q : QueueId) (s : State) : Result :=
  .next (s.finish true false (BitVec.ofNat 64 (s.queue q).cap))

end Machine
end Sys2Proof
end

