-- ==== Sys2Proof/Machine/Driver.lean ====
section
/-!
DEFINITION. The DRV commands (44_driver.md R240 to R259) and the later atomic steps of BEGIN, of a direct SEND and of
the dispatch commands.
-/

namespace Sys2Proof
namespace Machine

/-! ### BEGIN (R240 to R247) -/

/-- Step A's allocation and copy (R242). -/
def State.allocate (s : State) : State :=
  { s with
    rxq0 := Queue.init (fit s.cfg.wIdx s.settings.rx0sz.toNat)
    rxq1 := Queue.init (fit s.cfg.wIdx s.settings.rx1sz.toNat)
    txq := Queue.init (fit s.cfg.wIdx s.settings.txsz.toNat)
    dcb0 := s.cb0
    dcb1 := s.cb1 }

/-- Step A's end (R243): the four events, then wait 1. -/
def beginStepA (s : State) : State :=
  { (s.allocate.emitAll [.pClkEn, .pReset, .pPinCfg s.settings.oc, .pCfgEnter]) with
    dState := .initializing
    seq := .enterConfig }

/-- BEGIN (R240, R241): refused unless uninitialized; a non-zero code changes only RES and STATUS; else step A. -/
def execBegin (s : State) : Result :=
  if s.dState ≠ .uninitialized then .next (s.refuse .state)
  else
    let code := beginCode s.cfg.errBit s.timing s.settings.rate
    if code ≠ 0 then .next (s.finish false false code) else .next (beginStepA s)

/-- `P_TIMING` (R244): the seven fields as numbers. -/
def State.timingEvent (s : State) : Event :=
  .pTiming s.timing.brp.toNat s.timing.ps1.toNat s.timing.ps2.toNat s.timing.rjw.toNat s.timing.ts.toNat
    s.settings.mode.toNat s.settings.txprio.toNat

/-- Slot `i` as a record of `P_FILTERS`. -/
def FilterBank.bankAt (b : FilterBank) (i : Nat) : Bank :=
  { w1 := b.w1[i]?.getD 0, w2 := b.w2[i]?.getD 0, scale := b.scale.getLsbD i, mode := b.mode.getLsbD i,
    fifo := b.fifo.getLsbD i }

/-- The default bank of R245: mask mode, FIFO 0, matches everything. -/
def defaultBank : Bank := { w1 := 0, w2 := 0, scale := true, mode := false, fifo := false }

/-- The list `P_FILTERS` carries (R245). -/
def FilterBank.banks (b : FilterBank) : List Bank :=
  if b.count = 0 then [defaultBank] else (List.range b.count.toNat).map b.bankAt

/-- The set `P_IER` carries (R246), always this one. -/
def irqEnables : List IrqEnable := [.fmp0, .full0, .ovr0, .fmp1, .full1, .ovr1, .tme]

/-- Step B (R244 to R247), once `inak = 1`. -/
def beginStepB (s : State) : State :=
  { (s.emitAll [s.timingEvent, .pFilters s.bank.banks, .pIer irqEnables, .pCfgLeave]) with seq := .leaveConfig }

/-- Step C (R247), once `tme[0] = 1`. -/
def beginStepC (s : State) : State :=
  { (s.emit .nUnmask) with irqEn := 7, dState := .running, seq := .idle }.finish true false 0

/-! ### END (R248) -/

/-- END. -/
def execEnd (s : State) : Result :=
  if !s.isRunning then .next (s.refuse .state)
  else
    .next ({ (s.emit .nMask) with
      irqEn := 0
      rxq0 := Queue.unallocated
      rxq1 := Queue.unallocated
      txq := Queue.unallocated
      dState := .stopped }.finish true false 0)

/-! ### SEND (R250 to R253) -/

/-- The end of SEND with a code (30_encoding.md R109). -/
def State.sendCode (s : State) (code : BitVec 64) : State := s.finish (code == 0) false code

/-- `send_queued(F)` (R251), one atomic step. -/
def sendQueued (f : Frame) (s : State) : State :=
  if s.txq.cnt = 0 ∧ s.env.tme0 = true then (s.emit (.pMbWrite .mb0 f)).sendCode 0
  else
    match s.txq.append f with
    | some q => (s.setQueue .txq q).sendCode 0
    | none => s.sendCode 2

/-- Step WRITE of `send_direct` (R252): a mailbox no longer free is a fault. -/
def sendWriteStep (m : Mailbox) (f : Frame) (s : State) : Result :=
  if s.env.tme m then .next ({ (s.emit (.pMbWrite m f)) with op := .idle }.sendCode 0)
  else .fault .mailboxTaken

/-- Step TEST of `send_direct` (R252). With DIRECT_ATOMIC the two steps are one. -/
def sendDirect (m : Mailbox) (f : Frame) (s : State) : Result :=
  if !s.env.tme m then .next (s.sendCode 2)
  else if s.cfg.directAtomic then sendWriteStep m f s
  else .next { s with op := .sendWrite m f }

/-- SEND (R250): the destination is the Frame's `idx`. -/
def execSend (s : State) : Result :=
  if !s.isRunning then .next (s.refuse .state)
  else
    match s.operandFrame.idx with
    | 0 => .next (sendQueued s.operandFrame s)
    | 1 => sendDirect .mb1 s.operandFrame s
    | 2 => sendDirect .mb2 s.operandFrame s
    | _ => .next (s.sendCode 1)

/-! ### Receiving (R254 to R258) -/

/-- RECV0 (R254). -/
def execRecv0 (s : State) : Result :=
  if !s.isRunning then .next (s.refuse .state) else .next (removeToFres .rxq0 s)

/-- RECV1 (R254). -/
def execRecv1 (s : State) : Result :=
  if !s.isRunning then .next (s.refuse .state) else .next (removeToFres .rxq1 s)

/-- The end of a dispatch command (R255, R257). -/
def State.dispatched (s : State) (ok : Bool) : State := { s with op := .idle }.finish ok false 0

/-- Step POP of `dispatch(k)` (R255); `onEmpty` is what follows when the queue is empty. -/
def dispatchPop (k : FifoId) (combined : Bool) (onEmpty : State → State) (s : State) : State :=
  match (s.queue (rxQueueOf k)).remove (rxQueueOf k) with
  | none => onEmpty s
  | some (f, q) => { (s.setQueue (rxQueueOf k) q) with op := .dispCall k f combined }

/-- The callback bound to a filter-match index of FIFO k, if the index is in range and the reference is not null. -/
def State.boundCallback (s : State) (k : FifoId) (i : Nat) : Option Nat :=
  if i < (s.dcb k).len then
    let h := (s.dcb k).refs[i]?.getD 0
    if h = 0 then none else some h
  else none

/-- `CB_INVOKE` when a callback is bound, else nothing ("silently dropped", R255). -/
def State.invoke (s : State) (k : FifoId) (f : Frame) : State :=
  match s.boundCallback k f.idx with
  | none => s
  | some h => s.emit (.cbInvoke k f.idx h f)

/-- Step CALL of `dispatch(k)` (R255); DISP goes on to FIFO 1 after FIFO 0 (R257). -/
def dispatchCall (k : FifoId) (f : Frame) (combined : Bool) (s : State) : State :=
  match combined, k with
  | true, .fifo0 => { (s.invoke k f) with op := .dispSecond true }
  | _, _ => (s.invoke k f).dispatched true

/-- The second POP of DISP (R257); an empty queue 1 ends the command with what FIFO 0 yielded. -/
def dispatchSecond (yielded : Bool) (s : State) : State :=
  dispatchPop .fifo1 true (fun t => t.dispatched yielded) s

/-- DISP0 (R255). -/
def execDisp0 (s : State) : Result :=
  if !s.isRunning then .next (s.refuse .state)
  else .next (dispatchPop .fifo0 false (fun t => t.dispatched false) s)

/-- DISP1 (R255). -/
def execDisp1 (s : State) : Result :=
  if !s.isRunning then .next (s.refuse .state)
  else .next (dispatchPop .fifo1 false (fun t => t.dispatched false) s)

/-- DISP (R257): both dispatches, FIFO 0 first. -/
def execDisp (s : State) : Result :=
  if !s.isRunning then .next (s.refuse .state)
  else .next (dispatchPop .fifo0 true (fun t => { t with op := .dispSecond false }) s)

/-- The body of AVAILk (R258). -/
def available (q : QueueId) (s : State) : State :=
  s.finish ((s.queue q).cnt != 0) false (BitVec.ofNat 64 (s.queue q).cnt)

/-- AVAIL0 (R258). -/
def execAvail0 (s : State) : Result :=
  if !s.isRunning then .next (s.refuse .state) else .next (available .rxq0 s)

/-- AVAIL1 (R258). -/
def execAvail1 (s : State) : Result :=
  if !s.isRunning then .next (s.refuse .state) else .next (available .rxq1 s)

/-- DSTATE (R259). -/
def execDstate (s : State) : Result := .next (s.finish true false s.driverWord)

/-! ### The later steps of a command in progress -/

/-- MAIN's next atomic step inside a command; a wait of BEGIN whose condition does not hold is no step (R247,
70_reset_and_hazards.md R331), and neither is anything while MAIN is idle. -/
def continueMain (s : State) : Result :=
  match s.seq with
  | .enterConfig => if s.env.inak then .next (beginStepB s) else .next s
  | .leaveConfig => if s.env.inak then .next s else .next { s with seq := .mailbox0 }
  | .mailbox0 => if s.env.tme0 then .next (beginStepC s) else .next s
  | .idle =>
    match s.op with
    | .idle => .next s
    | .sendWrite m f => sendWriteStep m f s
    | .dispCall k f combined => .next (dispatchCall k f combined s)
    | .dispSecond yielded => .next (dispatchSecond yielded s)

end Machine
end Sys2Proof
end

