-- ==== Sys2Proof/Machine/Filters.lean ====
section
/-!
DEFINITION. The FB commands (43_filter_bank.md R210 to R225).
-/

namespace Sys2Proof
namespace Machine

/-- What a filter command commits once its checks have passed (R212). -/
structure Slot where
  w1        : Word
  w2        : Word
  /-- 1 = 32-bit single -/
  scale     : Bool
  /-- 1 = identifier list -/
  mode      : Bool
  callbacks : List Nat
  deriving DecidableEq, Repr

/-- A slot from its 64 bits: F_W1 the low half, F_W2 the high half (log entry 20). -/
def Slot.of (bits : BitVec 64) (scale mode : Bool) (callbacks : List Nat) : Slot :=
  { w1 := bits.extractLsb' 0 32, w2 := bits.extractLsb' 32 32, scale := scale, mode := mode, callbacks := callbacks }

/-- Bit `i` of a bitmap becomes `b`. -/
def setBit (v : BitVec 14) (i : Nat) (b : Bool) : BitVec 14 :=
  if b then v ||| (1#14 <<< i) else v &&& ~~~(1#14 <<< i)

/-- Callback references written from index `i` on (20_memory.md R76). -/
def writeRefs (refs : List Nat) (i : Nat) : List Nat → List Nat
  | [] => refs
  | c :: cs => writeRefs (refs.set i c) (i + 1) cs

/-- The references appended, the length advanced by their number. -/
def CallbackArray.append (c : CallbackArray) (cs : List Nat) : CallbackArray :=
  { refs := writeRefs c.refs c.len cs, len := c.len + cs.length }

/-- FIFO number as the bit of F_FIFO. -/
def fifoBit : FifoId → Bool
  | .fifo0 => false
  | .fifo1 => true

/-- The bank with one more slot (20_memory.md R75). -/
def FilterBank.add (b : FilterBank) (x : Slot) (k : FifoId) : FilterBank :=
  let i := b.count.toNat
  { count := b.count + 1
    w1 := b.w1.setIfInBounds i x.w1
    w2 := b.w2.setIfInBounds i x.w2
    scale := setBit b.scale i x.scale
    mode := setBit b.mode i x.mode
    fifo := setBit b.fifo i (fifoBit k) }

/-- The outcome of a filter command (R211, R212): a full bank or a failed check changes only STATUS and RES; else the
slot is committed and RES is its number. -/
def filterCommand (k : FifoId) (argsOk : Bool) (x : Slot) (s : State) : State :=
  if s.bank.count.toNat = Config.nslot ∨ argsOk = false then s.finish false false 0
  else
    ({ s with bank := s.bank.add x k }.setCb k ((s.cb k).append x.callbacks)).finish true false
      (s.bank.count.setWidth 64)

/-! ### Argument checks (R211) -/

/-- A standard identifier, base or mask. -/
def sidOk (v : Word) : Bool := decide (v.toNat ≤ Config.sidMax)
/-- An extended identifier, base or mask. -/
def eidOk (v : Word) : Bool := decide (v.toNat ≤ Config.eidMax)
/-- A mask-style base lies within its own mask. -/
def contained (base mask : Word) : Bool := base &&& mask == base
/-- A format argument: 0 data-only, 1 remote-only, 2 either (R110). -/
def formatOk (f : Word) : Bool := decide (f.toNat ≤ 2)
/-- A remote-flag argument. -/
def flagOk (r : Word) : Bool := decide (r.toNat ≤ 1)

/-! ### The four shapes (R214, R216 to R219) -/

/-- The identifier half of a standard mask filter (R214). -/
def standardIdHalf (l : FilterLayout) (base format : Word) : Word := filterHalf l base (format == 1) false

/-- The mask half of a standard mask filter (R214). -/
def standardMaskHalf (l : FilterLayout) (mask format : Word) : Word := filterHalf l mask (format != 2) true

/-- FSTDMASK k (R216). -/
def execFstdmask (k : FifoId) (s : State) : Result :=
  .next (filterCommand k
    (sidOk (s.arg 0) && sidOk (s.arg 1) && sidOk (s.arg 4) && sidOk (s.arg 5) &&
      contained (s.arg 0) (s.arg 1) && contained (s.arg 4) (s.arg 5) && formatOk (s.arg 2) && formatOk (s.arg 6))
    (Slot.of (slotBits s.cfg.filterLayout.dualMask
      [standardIdHalf s.cfg.filterLayout (s.arg 0) (s.arg 2), standardMaskHalf s.cfg.filterLayout (s.arg 1) (s.arg 2),
       standardIdHalf s.cfg.filterLayout (s.arg 4) (s.arg 6), standardMaskHalf s.cfg.filterLayout (s.arg 5) (s.arg 6)])
      false false [s.callbackArg 3, s.callbackArg 7]) s)

/-- One half of a standard identifier list. -/
def standardListHalf (l : FilterLayout) (id remote : Word) : Word := filterHalf l id (remote == 1) false

/-- FSTDQUAD k (R217). -/
def execFstdquad (k : FifoId) (s : State) : Result :=
  .next (filterCommand k
    (sidOk (s.arg 0) && flagOk (s.arg 1) && sidOk (s.arg 3) && flagOk (s.arg 4) &&
      sidOk (s.arg 6) && flagOk (s.arg 7) && sidOk (s.arg 9) && flagOk (s.arg 10))
    (Slot.of (slotBits s.cfg.filterLayout.dualList
      [standardListHalf s.cfg.filterLayout (s.arg 0) (s.arg 1), standardListHalf s.cfg.filterLayout (s.arg 3) (s.arg 4),
       standardListHalf s.cfg.filterLayout (s.arg 6) (s.arg 7), standardListHalf s.cfg.filterLayout (s.arg 9) (s.arg 10)])
      false true [s.callbackArg 2, s.callbackArg 5, s.callbackArg 8, s.callbackArg 11]) s)

/-- FEXTMASK k (R218). -/
def execFextmask (k : FifoId) (s : State) : Result :=
  .next (filterCommand k
    (eidOk (s.arg 0) && eidOk (s.arg 1) && contained (s.arg 0) (s.arg 1) && formatOk (s.arg 2))
    (Slot.of (slotBits s.cfg.filterLayout.singleMask
      [filterWord s.cfg.filterLayout (s.arg 0) true (s.arg 2 == 1),
       filterWord s.cfg.filterLayout (s.arg 1) true (s.arg 2 != 2)])
      true false [s.callbackArg 3]) s)

/-- FEXTDUAL k (R219). -/
def execFextdual (k : FifoId) (s : State) : Result :=
  .next (filterCommand k
    (eidOk (s.arg 0) && flagOk (s.arg 1) && eidOk (s.arg 3) && flagOk (s.arg 4))
    (Slot.of (slotBits s.cfg.filterLayout.singleList
      [filterWord s.cfg.filterLayout (s.arg 0) true (s.arg 1 == 1),
       filterWord s.cfg.filterLayout (s.arg 3) true (s.arg 4 == 1)])
      true true [s.callbackArg 2, s.callbackArg 5]) s)

/-! ### Read commands (R224, R225) -/

/-- FCOUNT (R224). -/
def execFcount (s : State) : Result := .next (s.finish true false (s.bank.count.setWidth 64))

/-- FGET what, index (R225): an index outside the selected object is refused (the bound for CB0 and CB1: `fgetSize`, log
entry 4). -/
def execFget (what : FWhat) (index : Nat) (s : State) : Result :=
  if index < fgetSize s.cfg.ncb what then .next (s.finish true false (s.filterRead what index))
  else .next (s.refuse .index)

end Machine
end Sys2Proof
end

