-- ==== Sys2Proof/Machine/Handlers.lean ====
section
/-!
DEFINITION. The three interrupt handlers (60_exceptions.md R285 to R291).
-/

namespace Sys2Proof
namespace Machine

/-- The receive part of H_RXk (R286): the decoded frame is appended, silently dropped when the queue is full, and the
FIFO slot is released either way. -/
def receiveFrame (k : FifoId) (s : State) : State :=
  let x := s.env.rx k
  let f := decodeRx s.cfg.rxLayout s.cfg.wFmi x.rxs0 x.rxs1 x.rxd0 x.rxd1
  let q := s.queue (rxQueueOf k)
  (s.setQueue (rxQueueOf k) ((q.append f).getD q)).emit (.pRxRelease k)

/-- H_RXk's body (R286), all samples taken at its start. -/
def receiveHandler (k : FifoId) (s : State) : State :=
  let x := s.env.rx k
  let s1 := if x.fmp then receiveFrame k s else s
  let s2 := if x.full then s1.emit (.pClrFull k) else s1
  if x.ovr then s2.emit (.pClrOvr k) else s2

/-- ISR_RX0 (R286). -/
def execIsrRx0 (s : State) : Result := enterHandler 0 (fun t => .next (receiveHandler .fifo0 t)) s

/-- ISR_RX1 (R286). -/
def execIsrRx1 (s : State) : Result := enterHandler 1 (fun t => .next (receiveHandler .fifo1 t)) s

/-- `free_mailbox()` (R290): the mailbox the sampled `code` names, if it reports free; else there is none and the
handler faults. -/
def Env.freeMailbox (e : Env) : Option Mailbox :=
  match e.code.toNat with
  | 0 => if e.tme0 then some .mb0 else none
  | 1 => if e.tme1 then some .mb1 else none
  | 2 => if e.tme2 then some .mb2 else none
  | _ => none

/-- Some mailbox reports free. -/
def Env.anyFree (e : Env) : Bool := e.tme0 || e.tme1 || e.tme2

/-- H_TX's body (R289), all samples taken at its start. -/
def transmitHandler (s : State) : Result :=
  if !s.env.txc then .next s
  else if s.env.anyFree then
    match s.txq.remove .txq with
    | none => .next (s.emit .pClrTxc)
    | some (f, q) =>
      match s.env.freeMailbox with
      | none => .fault .badCode
      | some m => .next ((s.setQueue .txq q).emitAll [.pMbWrite m f, .pClrTxc])
  else .next (s.emit .pClrTxc)

/-- ISR_TX (R289). -/
def execIsrTx (s : State) : Result := enterHandler 2 transmitHandler s

end Machine
end Sys2Proof
end

