-- ==== Sys2Proof/Machine/Dispatch.lean ====
section
/-!
DEFINITION. One arm per instruction. A command with several atomic steps answers with its first (44_driver.md R240,
R252, R255); the later ones are `continueMain`.
-/

namespace Sys2Proof
namespace Machine

def exec (i : Instr) (s : State) : Host.Outcome State Fault Refusal :=
  match i with
  -- FQ
  | .qinit q n => Sys2Proof.Machine.execQinit q n s
  | .qappend q => Sys2Proof.Machine.execQappend q s
  | .qremove q => Sys2Proof.Machine.execQremove q s
  | .qfree q => Sys2Proof.Machine.execQfree q s
  | .qrstpeak q => Sys2Proof.Machine.execQrstpeak q s
  | .qcount q => Sys2Proof.Machine.execQcount q s
  | .qpeak q => Sys2Proof.Machine.execQpeak q s
  | .qcap q => Sys2Proof.Machine.execQcap q s
  -- BT
  | .resolve => Sys2Proof.Machine.execResolve s
  | .tset f v => Sys2Proof.Machine.execTset f v s
  | .tget f => Sys2Proof.Machine.execTget f s
  | .tcheck => Sys2Proof.Machine.execTcheck s
  | .trate => Sys2Proof.Machine.execTrate s
  | .texact => Sys2Proof.Machine.execTexact s
  | .tppm => Sys2Proof.Machine.execTppm s
  | .tsample => Sys2Proof.Machine.execTsample s
  | .sset f v => Sys2Proof.Machine.execSset f v s
  | .sget f => Sys2Proof.Machine.execSget f s
  -- FB
  | .fstdmask k => Sys2Proof.Machine.execFstdmask k s
  | .fstdquad k => Sys2Proof.Machine.execFstdquad k s
  | .fextmask k => Sys2Proof.Machine.execFextmask k s
  | .fextdual k => Sys2Proof.Machine.execFextdual k s
  | .fcount => Sys2Proof.Machine.execFcount s
  | .fget what index => Sys2Proof.Machine.execFget what index s
  -- DRV
  | .drvBegin => Sys2Proof.Machine.execBegin s
  | .drvEnd => Sys2Proof.Machine.execEnd s
  | .send => Sys2Proof.Machine.execSend s
  | .recv0 => Sys2Proof.Machine.execRecv0 s
  | .recv1 => Sys2Proof.Machine.execRecv1 s
  | .disp0 => Sys2Proof.Machine.execDisp0 s
  | .disp1 => Sys2Proof.Machine.execDisp1 s
  | .disp => Sys2Proof.Machine.execDisp s
  | .avail0 => Sys2Proof.Machine.execAvail0 s
  | .avail1 => Sys2Proof.Machine.execAvail1 s
  | .dstate => Sys2Proof.Machine.execDstate s
  -- vector strobes
  | .isrRx0 => Sys2Proof.Machine.execIsrRx0 s
  | .isrRx1 => Sys2Proof.Machine.execIsrRx1 s
  | .isrTx => Sys2Proof.Machine.execIsrTx s

end Machine
end Sys2Proof
end

