-- ==== Sys2Proof/Machine/Ports.lean ====
section
/-!
DEFINITION. What reaches the block from outside: host register accesses (10_state.md R21), vector codes (30_encoding.md
R107), the moves of ENV (10_state.md R51, R62) and reset (70_reset_and_hazards.md R320 to R322).
-/

namespace Sys2Proof
namespace Machine

/-! ### Host registers (R21) -/

/-- One of four registers by index. -/
def FrameRegs.get (r : FrameRegs) : Nat → Word
  | 0 => r.w0
  | 1 => r.w1
  | 2 => r.w2
  | _ => r.w3

def FrameRegs.set (r : FrameRegs) (w : Word) : Nat → FrameRegs
  | 0 => { r with w0 := w }
  | 1 => { r with w1 := w }
  | 2 => { r with w2 := w }
  | _ => { r with w3 := w }

/-- The value a host read of a register number gives: no side effect (20_memory.md R79 c). A reserved number gives 0;
the write-only CMD gives a free value (log entry 10). -/
def State.hostReadValue (s : State) (reg : Nat) : Word :=
  if reg = 0x00 then Config.cmdReadValue s.reads.length
  else if reg = 0x01 then s.statusWord
  else if reg = 0x02 then s.res.extractLsb' 0 32
  else if reg = 0x03 then s.res.extractLsb' 32 32
  else if 0x04 ≤ reg ∧ reg ≤ 0x07 then s.fop.get (reg - 0x04)
  else if 0x08 ≤ reg ∧ reg ≤ 0x0B then s.fres.get (reg - 0x08)
  else if 0x10 ≤ reg ∧ reg ≤ 0x1B then s.arg (reg - 0x10)
  else 0

/-- A host write to a register other than CMD: it changes only that register; a reserved or read-only number ignores it
(log entry 10). -/
def State.hostWriteReg (s : State) (reg : Nat) (w : Word) : State :=
  if 0x04 ≤ reg ∧ reg ≤ 0x07 then { s with fop := s.fop.set w (reg - 0x04) }
  else if 0x10 ≤ reg ∧ reg ≤ 0x1B then { s with a := s.a.setIfInBounds (reg - 0x10) w }
  else s

/-- Executing a command word (R101): an illegal word changes only STATUS (R125), else the row's rule runs. -/
def runCommand (w : Word) (s : State) : Result :=
  match decode (.command w) with
  | .error _ => .next s.illegal
  | .ok i => exec i s

/-- One host action. -/
def hostStep : HostAction → State → Result
  | .read reg, s => .next { s with reads := s.reads ++ [s.hostReadValue reg] }
  | .write reg w, s => if reg = 0x00 then runCommand w s else .next (s.hostWriteReg reg w)

/-- MAIN's step: the next step of the command in progress, else the host's next action, else nothing. -/
def mainStep (s : State) : Result :=
  if s.busy then continueMain s
  else
    match s.host with
    | [] => .next s
    | h :: rest => hostStep h { s with host := rest }

/-! ### The vector port (60_exceptions.md R292) -/

/-- A delivered code: the reserved one is no step. -/
def strobeStep (v : BitVec 2) (s : State) : Result :=
  match decode (.vector v) with
  | .error _ => .next s
  | .ok i => exec i s

/-! ### ENV (10_state.md R50, R51, R62; log entries 5, 7) -/

/-- The block assumes nothing about the inputs between its reset and the end of wait 1 of BEGIN, which follows
`P_RESET` (R62): there ENV may replace them all. -/
def State.inputsOpen (s : State) : Bool := s.dState == .uninitialized || s.seq == .enterConfig

/-- The inputs after a move of ENV. A move the contract excludes in the present state changes nothing. -/
def envMoved (m : EnvMove) (s : State) : Env :=
  match m with
  | .settle e => if s.inputsOpen then e else s.env
  | .setInak b => { s.env with inak := b }
  | .freeMailbox mb => if s.env.tme mb then s.env else { (s.env.setTme mb true) with txc := true }
  | .raiseTxc => { s.env with txc := true }
  | .setCode c => { s.env with code := c }
  | .setHead k a b c d =>
    if (s.env.rx k).fmp then s.env
    else s.env.setRx k { s.env.rx k with rxs0 := a, rxs1 := b, rxd0 := c, rxd1 := d }
  | .raisePending k => s.env.setRx k { s.env.rx k with fmp := true }
  | .raiseFull k => s.env.setRx k { s.env.rx k with full := true }
  | .raiseOverrun k => s.env.setRx k { s.env.rx k with ovr := true }

/-! ### Reset (70_reset_and_hazards.md R320 to R322) -/

/-- Reset: every register of the block at its reset value; no event; the inputs, what the block has emitted and the
host has read, and what is still scheduled, stay (log entry 19). -/
def State.afterReset (s : State) : State :=
  { State.resetWith s.cfg with
    env := s.env
    events := s.events
    reads := s.reads
    host := s.host
    turns := s.turns }

/-! ### Whose step it is (60_exceptions.md R293) -/

/-- The step a turn takes. -/
def turnStep : Turn → State → Result
  | .main, s => mainStep s
  | .strobe v, s => strobeStep v s
  | .env m, s => .next { s with env := envMoved m s }
  | .reset, s => .next s.afterReset

end Machine
end Sys2Proof
end

