-- ==== Sys2Proof/Machine/Step.lean ====
section
/-!
DEFINITION. One atomic step of the whole (20_memory.md R83), and how the host places an instruction.
-/

namespace Sys2Proof
namespace Machine

/-- The turn at the head of the list takes its step; with no turn left it is MAIN's (log entries 1, 14). -/
def step (s : State) : Host.Outcome State Fault Refusal :=
  match s.turns with
  | [] => mainStep s
  | t :: rest => turnStep t { s with turns := rest }

/-- `s` with an instruction placed where the next step takes it: a command as the host's next action with MAIN idle and
its turn next, a vector code as the next delivery (log entries 2, 17). -/
def State.withFetchWord (s : State) (nbits w : Nat) : State :=
  if nbits ≤ 8 then { s with turns := .strobe (BitVec.ofNat 2 w) :: s.turns }
  else
    { s with
      seq := .idle
      op := .idle
      host := .write 0 (BitVec.ofNat 32 w) :: s.host
      turns := .main :: s.turns }

end Machine
end Sys2Proof
end

