-- ==== Sys2Proof/Safety.lean ====
section
/-!
DEFINITION. The terms claims use: the invariants of 10_state.md R33, R37, R45 to R47 (the launch premises of
70_reset_and_hazards.md R353), the environment contract's clause on `code` (R51 b), the end of a run (R351).
-/

namespace Sys2Proof
namespace Machine

/-! ### STATUS after a command (R24) -/

/-- An executed command with its result and FVALID. -/
def Status.executed (ok fvalid : Bool) : Status := { ok := ok, refused := false, illegal := false, fvalid := fvalid }

/-- A refused command (60_exceptions.md R284). -/
def Status.afterRefusal : Status := { ok := false, refused := true, illegal := false, fvalid := false }

/-- An illegal word (30_encoding.md R125). -/
def Status.afterIllegal : Status := { ok := false, refused := false, illegal := true, fvalid := false }

/-! ### The schedule -/

/-- The next step is MAIN's and leaves the turns `ts`: its turn is the next one, or no turn is left (log entry 1). -/
def State.mainNext (s : State) (ts : List Turn) : Prop := s.turns = .main :: ts ∨ (s.turns = [] ∧ ts = [])

/-! ### Instructions by FIFO -/

def rxIsr : FifoId → Instr
  | .fifo0 => .isrRx0
  | .fifo1 => .isrRx1

def recvCommand : FifoId → Instr
  | .fifo0 => .recv0
  | .fifo1 => .recv1

def dispCommand : FifoId → Instr
  | .fifo0 => .disp0
  | .fifo1 => .disp1

def availCommand : FifoId → Instr
  | .fifo0 => .avail0
  | .fifo1 => .avail1

/-- The commands of the driver that only a running driver admits (44_driver.md R260). -/
def runningOnly : List Instr :=
  [.drvEnd, .send, .recv0, .recv1, .disp0, .disp1, .disp, .avail0, .avail1]

/-! ### The resolver's candidates (42_bit_timing.md R172) -/

/-- (b, tq) is one of the pairs the search examines: one of the two prescalers of a TQ in 5 .. 25, in range. -/
def isCandidate (clk rate tq b : Nat) : Prop :=
  5 ≤ tq ∧ tq ≤ 25 ∧ (b = clk / (rate * tq) ∨ b = clk / (rate * tq) + 1) ∧ 1 ≤ b ∧ b ≤ 1024

/-- The clock error of a pair. -/
def clockError (clk rate tq b : Nat) : Nat := absDiff clk (rate * tq * b)

/-! ### Queues (R33, 41_frame_queue.md R151) -/

/-- The queue invariants of R33. -/
structure Queue.Inv (q : Queue) : Prop where
  cnt_le_cap  : q.cnt ≤ q.cap
  peak_le_cap : q.peak ≤ q.cap
  cnt_le_peak : q.cnt ≤ q.peak
  rd_lt_cap   : q.cap ≠ 0 → q.rd < q.cap
  rd_zero     : q.cap = 0 → q.rd = 0
  store_wf    : Memory.wf q.store
  store_lt    : ∀ e ∈ q.store, e.1 < q.cap
  /-- every occupied slot was written by an append since the last QINIT -/
  written     : ∀ j, j < q.cnt → (memRead q.store ((q.rd + j) % q.cap)).isSome = true

/-- The widths of a queue's registers and frames (00_scope.md R9): CAP has W_IDX bits, and with `Queue.Inv` so have RD, CNT
and PEAK, which it bounds by CAP; the index of every stored Frame has W_FMI bits. -/
structure Queue.Fits (c : Config) (q : Queue) : Prop where
  cap_lt : q.cap < 2 ^ c.wIdx
  idx_lt : ∀ e ∈ q.store, e.2.idx < 2 ^ c.wFmi

/-- The queue as an abstract value (R151): its Frames, oldest first. -/
def Queue.contents (id : QueueId) (q : Queue) : List Frame :=
  (List.range q.cnt).map fun j => q.slot id ((q.rd + j) % q.cap)

/-! ### Filter bank (R35 to R37) -/

/-- Logical entries of a slot by its scale and mode bits (43_filter_bank.md R220). -/
def slotEntries (scale mode : Bool) : Nat :=
  match scale, mode with
  | false, false => 2
  | false, true => 4
  | true, false => 1
  | true, true => 2

/-- Logical entries of the first n slots that are routed to FIFO k. -/
def FilterBank.entries (b : FilterBank) (k : FifoId) : Nat → Nat
  | 0 => 0
  | n + 1 =>
    b.entries k n +
      (if b.fifo.getLsbD n = fifoBit k then slotEntries (b.scale.getLsbD n) (b.mode.getLsbD n) else 0)

/-- F_COUNT is at most 14, and words and bits of unused slots are 0 (R35). -/
structure FilterBank.Inv (b : FilterBank) : Prop where
  count_le : b.count.toNat ≤ 14
  w1_zero  : ∀ i, b.count.toNat ≤ i → b.w1[i]?.getD 0 = 0
  w2_zero  : ∀ i, b.count.toNat ≤ i → b.w2[i]?.getD 0 = 0
  bits_zero : ∀ i, b.count.toNat ≤ i →
    b.scale.getLsbD i = false ∧ b.mode.getLsbD i = false ∧ b.fifo.getLsbD i = false

/-- NCB elements of W_CB bits, the length at most NCB, elements at or beyond the length 0 (R36, R38, 00_scope.md R9). -/
structure CallbackArray.Inv (c : Config) (a : CallbackArray) : Prop where
  size   : a.refs.length = c.ncb
  len_le : a.len ≤ c.ncb
  zero   : ∀ i, a.len ≤ i → a.refs[i]?.getD 0 = 0
  fits   : ∀ r ∈ a.refs, r < 2 ^ c.wCb

/-- Slot `i` is a mask slot whose encoded bases lie within their encoded masks, for the default layout (R37). -/
def FilterBank.maskContained (b : FilterBank) (i : Nat) : Prop :=
  b.mode.getLsbD i = false →
    if b.scale.getLsbD i then
      ((b.w1[i]?.getD 0) >>> 3) &&& ((b.w2[i]?.getD 0) >>> 3) = (b.w1[i]?.getD 0) >>> 3
    else
      ∀ w : Word, (w = b.w1[i]?.getD 0 ∨ w = b.w2[i]?.getD 0) →
        (w.extractLsb' 5 11) &&& (w.extractLsb' 21 11) = w.extractLsb' 5 11

/-! ### The whole state (R353) -/

/-- The Frame MAIN holds between two steps of a command. -/
def MainOp.frame : MainOp → Option Frame
  | .sendWrite _ f => some f
  | .dispCall _ f _ => some f
  | .idle | .dispSecond _ => none

/-- The invariants a run's states meet: the launch premises P3 to P6 of R353 and what keeps them. -/
structure State.Inv (s : State) : Prop where
  cfg_wf      : s.cfg.wf
  queues      : ∀ q, (s.queue q).Inv
  queue_fits  : ∀ q, (s.queue q).Fits s.cfg
  bank        : s.bank.Inv
  /-- each length is the number of logical entries of the slots routed to that FIFO (R37) -/
  cb_len      : ∀ k, (s.cb k).len = s.bank.entries k s.bank.count.toNat
  cb          : ∀ k, (s.cb k).Inv s.cfg
  dcb         : ∀ k, (s.dcb k).Inv s.cfg
  sizes       : s.settings.rx0sz.toNat ≤ s.cfg.qmax ∧ s.settings.rx1sz.toNat ≤ s.cfg.qmax ∧
                  s.settings.txsz.toNat ≤ s.cfg.qmax
  /-- SEQ ≠ 0 exactly when D_STATE = 1 (R46) -/
  seq_init    : s.seq ≠ .idle ↔ s.dState = .initializing
  /-- IRQ_EN is 0b111 while running, else 0 (R47) -/
  gate        : s.irqEn = if s.dState = .running then 7 else 0
  op_running  : s.op ≠ .idle → s.dState = .running
  op_mailbox  : ∀ f, s.op ≠ .sendWrite .mb0 f
  op_atomic   : s.cfg.directAtomic = true → ∀ m f, s.op ≠ .sendWrite m f
  /-- the Frame MAIN holds between two steps has an index of W_FMI bits -/
  op_fits     : ∀ f, s.op.frame = some f → f.idx < 2 ^ s.cfg.wFmi
  /-- TXQ is empty from step A of BEGIN to step C -/
  tx_empty    : s.dState = .initializing → s.txq.cnt = 0

/-- R344: a queued frame is never stranded with all mailboxes free and no completion pending. -/
def State.NotStranded (s : State) : Prop :=
  s.dState = .running → s.txq.cnt ≠ 0 →
    s.env.tme0 = false ∨ s.env.tme1 = false ∨ s.env.tme2 = false ∨ s.env.txc = true

/-- R51 (b): when some mailbox is free, `code` names a free one. -/
def Env.codeNamesFree (e : Env) : Prop := e.anyFree = true → e.freeMailbox ≠ none

/-- The changes of D_STATE that 44_driver.md R260 lists, reset apart. -/
def DState.mayBecome : DState → DState → Prop
  | .uninitialized, d => d = .uninitialized ∨ d = .initializing
  | .initializing, d => d = .initializing ∨ d = .running
  | .running, d => d = .running ∨ d = .stopped
  | .stopped, d => d = .stopped

/-- The changes of SEQ that R260 lists, reset apart. -/
def Seq.mayBecome : Seq → Seq → Prop
  | .idle, q => q = .idle ∨ q = .enterConfig
  | .enterConfig, q => q = .enterConfig ∨ q = .leaveConfig
  | .leaveConfig, q => q = .leaveConfig ∨ q = .mailbox0
  | .mailbox0, q => q = .mailbox0 ∨ q = .idle

/-- Some request line is 1 (R52). -/
def State.requesting (s : State) : Bool := s.irqRx0 || s.irqRx1 || s.irqTx

/-- The run has ended (R351): every host action issued and completed, no request line 1, nothing more scheduled. A state
after a fault is no state of a run at all. -/
def State.ended (s : State) : Bool := s.host.isEmpty && s.turns.isEmpty && !s.busy && !s.requesting

end Machine
end Sys2Proof
end

