-- ==== Sys2Proof/Certificates/Slice0/Obligations.lean ====
section
/-!
DEFINITION. The statements for the provers. A statement about a command gives every outcome the spec gives it, as an
equation for `exec` whose right side is the state before with the written fields replaced: everything not named is
unchanged, memory included.
-/

open Sys2Proof Sys2Proof.Machine

/-! ## Encoding -/

/-- 30_encoding.md R102, R103, R106, R107: no bit of an encoding is dropped. -/
def Obligations.DecodeOfEncodeIsTheInstruction : Prop :=
  ∀ i : Instr, i.wf = true → decode (encode i) = .ok i

/-- R125: the unused-field check makes decoding injective (D2): a code that decodes is the one encoding of what it
decodes to. -/
def Obligations.EncodeOfDecodeIsTheCode : Prop :=
  ∀ (c : Code) (i : Instr), decode c = .ok i → i.wf = true ∧ encode i = c

/-- R113: a decoded code selects the row of its instruction, no two rows select one code, and a code that selects a row
decodes to that row's instruction unless its queue number or selector is a reserved value. -/
def Obligations.DecodedCodesAreTheOpcodeTablesCodes : Prop :=
  (∀ (c : Code) (i : Instr), decode c = .ok i → ∃ r ∈ opcodeTable, r.mnemonic = i.mnemonic ∧ r.selects c = true) ∧
  (∀ (c : Code), ∀ r ∈ opcodeTable, ∀ r' ∈ opcodeTable, r.selects c = true → r'.selects c = true → r = r') ∧
  (∀ (c : Code), ∀ r ∈ opcodeTable, r.selects c = true →
    (∃ i, decode c = .ok i ∧ i.mnemonic = r.mnemonic) ∨
      decode c = .error .reservedQueue ∨ decode c = .error .reservedSelector)

/-- Words written out from R102, R103, R106, R107 decode to the instructions they stand for; words with a reserved
field, an unused field that is not zero or an unlisted opcode do not (R125). -/
def Obligations.WrittenOutWordsDecode : Prop :=
  decode (.command 0x1002FFFF#32) = .ok (.qinit .txq 65535) ∧
  decode (.command 0x21020007#32) = .ok (.tset .ps2 7) ∧
  decode (.command 0x30010000#32) = .ok (.fstdmask .fifo1) ∧
  decode (.command 0x35080037#32) = .ok (.fget .cb1 55) ∧
  decode (.command 0x42000000#32) = .ok .send ∧
  decode (.vector 2#2) = .ok .isrTx ∧
  decode (.command 0x11030000#32) = .error .reservedQueue ∧
  decode (.command 0x30020000#32) = .error .reservedFifo ∧
  decode (.command 0x22060000#32) = .error .reservedSelector ∧
  decode (.command 0x40000001#32) = .error .unusedField ∧
  decode (.command 0x4B000000#32) = .error .unknownOpcode ∧
  decode (.vector 3#2) = .error .reservedVector

/-! ## Steps -/

/-- R125: an illegal word changes STATUS and nothing else. -/
def Obligations.IllegalWordChangesOnlyStatus : Prop :=
  ∀ (s : State) (w : Word) (e : DecodeError) (hs : List HostAction) (ts : List Turn),
    s.busy = false → s.mainNext ts → s.host = .write 0 w :: hs → decode (.command w) = .error e →
    step s = .next { s with turns := ts, host := hs, status := Status.afterIllegal }

/-- R101, 70_reset_and_hazards.md R352: when MAIN holds no command in progress and its turn is next (or no turn is
left), a command word that decodes runs exactly its instruction, on the state without that host action and that turn. -/
def Obligations.StepRunsTheDecodedCommand : Prop :=
  ∀ (s : State) (w : Word) (i : Instr) (hs : List HostAction) (ts : List Turn),
    s.busy = false → s.mainNext ts → s.host = .write 0 w :: hs → decode (.command w) = .ok i →
    step s = exec i { s with turns := ts, host := hs }

/-- 60_exceptions.md R292: a delivered code runs exactly its handler, whatever MAIN holds; the reserved code 0b11 is no
step and changes nothing. -/
def Obligations.StepRunsTheDeliveredStrobe : Prop :=
  ∀ (s : State) (v : BitVec 2) (ts : List Turn), s.turns = .strobe v :: ts →
    (∀ i, decode (.vector v) = .ok i → step s = exec i { s with turns := ts }) ∧
    (v = 3#2 → step s = .next { s with turns := ts })

/-- 10_state.md R60: the reset values, for every value of the parameters. (The sampled inputs have none, R62, and are not
named here.) -/
def Obligations.ResetStateHasTheStatedValues : Prop :=
  (∃ c : Config, c.wf ∧ State.reset = State.resetWith c) ∧
  ∀ (c : Config) (s : State), s = State.resetWith c →
    s.statusWord = 0 ∧ s.res = 0 ∧ s.fop = ⟨0, 0, 0, 0⟩ ∧ s.fres = ⟨0, 0, 0, 0⟩ ∧ (∀ i : Nat, s.arg i = 0) ∧
    s.settings = ⟨0, 0, 0, 0, 0, 0, false, false⟩ ∧ s.timing = ⟨0, 0, 0, 0, false, false⟩ ∧
    (∀ q, (s.queue q).cap = 0 ∧ (s.queue q).rd = 0 ∧ (s.queue q).cnt = 0 ∧ (s.queue q).peak = 0) ∧
    s.bank.count = 0 ∧ s.bank.scale = 0 ∧ s.bank.mode = 0 ∧ s.bank.fifo = 0 ∧
    (∀ i : Nat, s.bank.w1[i]?.getD 0 = 0 ∧ s.bank.w2[i]?.getD 0 = 0) ∧
    (∀ k, (s.cb k).len = 0 ∧ (s.cb k).refs.length = c.ncb ∧ (∀ r ∈ (s.cb k).refs, r = 0) ∧
      (s.dcb k).len = 0 ∧ (s.dcb k).refs.length = c.ncb ∧ ∀ r ∈ (s.dcb k).refs, r = 0) ∧
    s.dState = .uninitialized ∧ s.seq = .idle ∧ s.irqEn = 0

/-- 70_reset_and_hazards.md R320 to R322: reset from any state gives every register of the block its reset value, emits
no event and leaves the inputs alone. That the schedule stays is the model's (log entry 19). -/
def Obligations.ResetTurnRestoresEveryRegister : Prop :=
  ∀ (s : State) (ts : List Turn), s.turns = .reset :: ts →
    step s = .next { State.resetWith s.cfg with
      env := s.env, events := s.events, reads := s.reads, host := s.host, turns := ts }

/-- 10_state.md R21 to R25: what a host read of each register number returns; it changes only the record of what was
read. (Number 0 is write-only: no value is stated for it, log entry 10.) -/
def Obligations.HostReadsReturnTheRegisters : Prop :=
  ∀ (s : State) (reg : Nat) (hs : List HostAction) (ts : List Turn),
    s.busy = false → s.mainNext ts → s.host = .read reg :: hs →
    ∃ v : Word, step s = .next { s with turns := ts, host := hs, reads := s.reads ++ [v] } ∧
      (reg = 1 → v.toNat = s.status.ok.toNat + 2 * s.status.refused.toNat + 4 * s.status.illegal.toNat +
        8 * (s.seq != .idle).toNat + 16 * s.status.fvalid.toNat) ∧
      (reg = 2 → v.toNat = s.res.toNat % 2 ^ 32) ∧
      (reg = 3 → v.toNat = s.res.toNat / 2 ^ 32) ∧
      (reg = 4 → v = s.fop.w0) ∧ (reg = 5 → v = s.fop.w1) ∧ (reg = 6 → v = s.fop.w2) ∧ (reg = 7 → v = s.fop.w3) ∧
      (reg = 8 → v = s.fres.w0) ∧ (reg = 9 → v = s.fres.w1) ∧ (reg = 10 → v = s.fres.w2) ∧
      (reg = 11 → v = s.fres.w3) ∧
      (∀ i : Fin 12, reg = 16 + i.val → v = s.a[i]) ∧
      ((12 ≤ reg ∧ reg ≤ 15) ∨ 28 ≤ reg → v = 0)

/-- 10_state.md R21: a host write other than to CMD changes only its register; a write to a reserved number is ignored.
(That a write to a read-only number is ignored too is the model's, log entry 10.) -/
def Obligations.HostWritesChangeOnlyTheirRegister : Prop :=
  ∀ (s : State) (reg : Nat) (w : Word) (hs : List HostAction) (ts : List Turn),
    s.busy = false → s.mainNext ts → s.host = .write reg w :: hs →
    (reg = 4 → step s = .next { s with turns := ts, host := hs, fop := { s.fop with w0 := w } }) ∧
    (reg = 5 → step s = .next { s with turns := ts, host := hs, fop := { s.fop with w1 := w } }) ∧
    (reg = 6 → step s = .next { s with turns := ts, host := hs, fop := { s.fop with w2 := w } }) ∧
    (reg = 7 → step s = .next { s with turns := ts, host := hs, fop := { s.fop with w3 := w } }) ∧
    (∀ i : Fin 12, reg = 16 + i.val → step s = .next { s with turns := ts, host := hs, a := s.a.set i w }) ∧
    ((1 ≤ reg ∧ reg ≤ 3) ∨ (8 ≤ reg ∧ reg ≤ 15) ∨ 28 ≤ reg → step s = .next { s with turns := ts, host := hs })

/-! ## Frame queues -/

/-- 41_frame_queue.md R141, R144: QINIT is refused while the driver owns the queues or above QMAX, and otherwise sets CAP
and clears RD, CNT, PEAK and the store; QFREE is refused while the driver owns the queues and otherwise zeroes all four and
the store. CAP holds every size up to QMAX whole when the parameters are consistent (log entry 4). -/
def Obligations.QinitAndQfreeResetTheQueue : Prop :=
  ∀ (q : QueueId) (n : Nat) (s : State), n < 65536 →
    (s.dState = .initializing ∨ s.dState = .running →
      exec (.qinit q n) s = .next { s with status := Status.afterRefusal } ∧
      exec (.qfree q) s = .next { s with status := Status.afterRefusal }) ∧
    (s.dState = .uninitialized ∨ s.dState = .stopped → s.cfg.qmax < n →
      exec (.qinit q n) s = .next { s with status := Status.afterRefusal }) ∧
    (s.dState = .uninitialized ∨ s.dState = .stopped → n ≤ s.cfg.qmax →
      exec (.qinit q n) s =
        .next { (s.setQueue q { cap := n % 2 ^ s.cfg.wIdx, rd := 0, cnt := 0, peak := 0, store := [] }) with
          status := Status.executed true false, res := 0 }) ∧
    (s.cfg.wf → n ≤ s.cfg.qmax → n % 2 ^ s.cfg.wIdx = n) ∧
    (s.dState = .uninitialized ∨ s.dState = .stopped →
      exec (.qfree q) s = .next { (s.setQueue q { cap := 0, rd := 0, cnt := 0, peak := 0, store := [] }) with
        status := Status.executed true false, res := 0 })

/-- R142, R140: QAPPEND is refused while the driver owns the queues; on a full queue it changes only STATUS and RES;
otherwise the Frame of FOP is stored at slot (RD + CNT) mod CAP, every other slot reads as before, CNT grows by one and
PEAK is the larger of PEAK and the new CNT. -/
def Obligations.QappendStoresAtTheTailIndex : Prop :=
  ∀ (q : QueueId) (s : State), Memory.wf (s.queue q).store →
    (s.dState = .initializing ∨ s.dState = .running →
      exec (.qappend q) s = .next { s with status := Status.afterRefusal }) ∧
    (s.dState = .uninitialized ∨ s.dState = .stopped → (s.queue q).cnt = (s.queue q).cap →
      exec (.qappend q) s = .next { s with status := Status.executed false false, res := 0 }) ∧
    (s.dState = .uninitialized ∨ s.dState = .stopped → (s.queue q).cnt ≠ (s.queue q).cap →
      ∃ q' : Queue,
        exec (.qappend q) s = .next { (s.setQueue q q') with status := Status.executed true false, res := 0 } ∧
        q'.cap = (s.queue q).cap ∧ q'.rd = (s.queue q).rd ∧ q'.cnt = (s.queue q).cnt + 1 ∧
        q'.peak = max (s.queue q).peak q'.cnt ∧
        ∀ i, memRead q'.store i =
          if i = ((s.queue q).rd + (s.queue q).cnt) % (s.queue q).cap then some s.operandFrame
          else memRead (s.queue q).store i)

/-- R143, R149: QREMOVE is refused while the driver owns the queues; on an empty queue FRES keeps its value and OK is 0;
otherwise the Frame in slot RD goes to FRES, RD advances modulo CAP, CNT falls by one, and PEAK and every slot stay. -/
def Obligations.QremoveYieldsTheFrameAtTheHead : Prop :=
  ∀ (q : QueueId) (s : State),
    (s.dState = .initializing ∨ s.dState = .running →
      exec (.qremove q) s = .next { s with status := Status.afterRefusal }) ∧
    (s.dState = .uninitialized ∨ s.dState = .stopped → (s.queue q).cnt = 0 →
      exec (.qremove q) s = .next { s with status := Status.executed false false, res := 0 }) ∧
    (s.dState = .uninitialized ∨ s.dState = .stopped → (s.queue q).cnt ≠ 0 →
      ∃ f : Frame, (∀ g, memRead (s.queue q).store (s.queue q).rd = some g → f = g) ∧
        exec (.qremove q) s = .next { (s.setQueue q { s.queue q with
            rd := ((s.queue q).rd + 1) % (s.queue q).cap
            cnt := (s.queue q).cnt - 1 }) with
          fres := FrameRegs.pack s.cfg.wFmi f, status := Status.executed true true, res := 0 })

/-- R145: QRSTPEAK q sets PEAK to CNT in any D_STATE and changes nothing else. Reset apart, a step that lowers a PEAK runs
QRSTPEAK of that queue, or runs QINIT or QFREE of that queue, BEGIN or END and leaves that PEAK 0; and these four, when they
are not turned away, zero it whatever it was. -/
def Obligations.QrstpeakSetsPeakToTheCount : Prop :=
  (∀ (q : QueueId) (s : State),
    encode (.qrstpeak q) = .command (mkWord 0x14 q.code 0) ∧
    exec (.qrstpeak q) s = .next { (s.setQueue q { s.queue q with peak := (s.queue q).cnt }) with
      status := Status.executed true false, res := 0 }) ∧
  (∀ (q : QueueId) (s s' : State), (∀ ts, s.turns ≠ .reset :: ts) → step s = .next s' →
    (s'.queue q).peak < (s.queue q).peak →
    ∃ (w : Word) (hs : List HostAction) (i : Instr), s.host = .write 0 w :: hs ∧ decode (.command w) = .ok i ∧
      (i = .qrstpeak q ∨
        (((∃ n, i = .qinit q n) ∨ i = .qfree q ∨ i = .drvBegin ∨ i = .drvEnd) ∧ (s'.queue q).peak = 0))) ∧
  (∀ (q : QueueId) (i : Instr) (s s' : State), exec i s = .next s' →
    ((∃ n, i = .qinit q n) ∨ i = .qfree q) ∧ s'.status.refused = false ∨
      (i = .drvBegin ∨ i = .drvEnd) ∧ s'.dState ≠ s.dState →
    (s'.queue q).peak = 0)

/-- R146, R147, R148: the three read commands return the field in RES and change only STATUS and RES. -/
def Obligations.QueueReadsReturnTheFields : Prop :=
  ∀ (q : QueueId) (s : State),
    exec (.qcount q) s = .next { s with status := Status.executed true false, res := BitVec.ofNat 64 (s.queue q).cnt } ∧
    exec (.qpeak q) s = .next { s with status := Status.executed true false, res := BitVec.ofNat 64 (s.queue q).peak } ∧
    exec (.qcap q) s = .next { s with status := Status.executed true false, res := BitVec.ofNat 64 (s.queue q).cap }

/-- R150 (a), (b): a queue initialised with size n ≥ 1 accepts any n frames, then fails, its peak is n, and what it
holds is those frames in the order of the appends. -/
def Obligations.QueueAcceptsExactlyItsCapacity : Prop :=
  ∀ (id : QueueId) (n : Nat) (fs : List Frame), 1 ≤ n → fs.length = n →
    ∃ q, fs.foldlM Queue.append (Queue.init n) = some q ∧ q.peak = n ∧ q.cnt = n ∧ q.contents id = fs ∧
      ∀ f, q.append f = none

/-- R151: the queue is the sequence of its frames. An append that is not full adds at the end, a remove takes from the
front and returns what it takes, a failed operation is one on a full or an empty sequence, CNT is the length, and PEAK
follows the largest length: an append raises it to the new length when that is larger, a remove leaves it, QINIT and QFREE
set it to 0 and QRSTPEAK to the present length. -/
def Obligations.QueueIsTheSequenceOfItsFrames : Prop :=
  ∀ (id : QueueId) (q : Queue), q.Inv →
    (q.contents id).length = q.cnt ∧
    (∀ f, q.append f = none ↔ (q.contents id).length = q.cap) ∧
    (∀ f q', q.append f = some q' → q'.Inv ∧ q'.contents id = q.contents id ++ [f] ∧
      q'.peak = max q.peak (q'.contents id).length) ∧
    (q.remove id = none ↔ q.contents id = []) ∧
    (∀ f q', q.remove id = some (f, q') → q'.Inv ∧ q.contents id = f :: q'.contents id ∧ q'.peak = q.peak) ∧
    (∀ n, (Queue.init n).Inv ∧ (Queue.init n).contents id = [] ∧ (Queue.init n).peak = 0) ∧
    q.resetPeak.Inv ∧ q.resetPeak.contents id = q.contents id ∧ q.resetPeak.peak = (q.contents id).length

/-! ## Bit timing -/

/-- 42_bit_timing.md R171, R174, R176: RESOLVE refuses rate 0; otherwise it writes S_RATE, S_TOL and the six timing
registers from the pair of the search, RES and STATUS.OK from the close-enough flag, and nothing else. -/
def Obligations.ResolveWritesTheComputedConfiguration : Prop :=
  ∀ s : State,
    (s.a[0] = 0 → exec .resolve s = .next { s with status := Status.afterRefusal }) ∧
    (s.a[0] ≠ 0 → ∀ brp tq ps2 ps1 w : Nat, ∀ ok : Bool,
      brp = (search s.cfg.clk.toNat s.a[0].toNat).brp →
      tq = (search s.cfg.clk.toNat s.a[0].toNat).tq →
      ps2 = 1 + 2 * tq / 7 → ps1 = tq - ps2 - 1 → w = s.a[0].toNat * tq * brp →
      ok = decide (((s.cfg.clk.toNat : Int) - (w : Int)).natAbs * 1000000 ≤ w * s.a[1].toNat) →
      exec .resolve s = .next { s with
        settings := { s.settings with rate := s.a[0], tol := s.a[1] }
        timing := { brp := BitVec.ofNat 16 brp, ps1 := BitVec.ofNat 8 ps1, ps2 := BitVec.ofNat 8 ps2,
                    rjw := BitVec.ofNat 8 (min ps2 4), ts := decide (s.a[0].toNat ≤ 125000 ∧ 1 < ps1), ok := ok }
        status := Status.executed ok false
        res := if ok then 1 else 0 })

/-- R172: where a candidate exists the search answers a candidate of smallest clock error, the first found (a larger TQ,
and at one TQ the lower prescaler, has a larger error); where none exists it answers (1024, 25). The order at one TQ and
the fallback are the spec's own decision D9. -/
def Obligations.SearchFindsTheSmallestClockError : Prop :=
  ∀ clk rate : Nat, 1 ≤ rate →
    ((∃ tq b, isCandidate clk rate tq b) →
      isCandidate clk rate (search clk rate).tq (search clk rate).brp ∧
      ∀ tq b, isCandidate clk rate tq b →
        clockError clk rate (search clk rate).tq (search clk rate).brp ≤ clockError clk rate tq b ∧
        ((search clk rate).tq < tq →
          clockError clk rate (search clk rate).tq (search clk rate).brp < clockError clk rate tq b) ∧
        (tq = (search clk rate).tq → b < (search clk rate).brp →
          clockError clk rate (search clk rate).tq (search clk rate).brp < clockError clk rate tq b)) ∧
    ((¬ ∃ tq b, isCandidate clk rate tq b) → (search clk rate).brp = 1024 ∧ (search clk rate).tq = 25)

/-- R175: after any RESOLVE the segments are in range, RJW ≤ PS2, T_TS tells rate ≤ 125000, and the consistency mask
is 0, for every rate and clock. -/
def Obligations.ResolvedConfigurationIsConsistent : Prop :=
  ∀ (clk tol : Nat) (rate : Word) (e : ErrBits) (t : Timing), rate ≠ 0 → t = resolveTiming clk rate.toNat tol →
    2 ≤ t.ps2.toNat ∧ t.ps2.toNat ≤ 8 ∧ 2 ≤ t.ps1.toNat ∧ t.ps1.toNat ≤ 16 ∧
    2 ≤ t.rjw.toNat ∧ t.rjw.toNat ≤ 4 ∧ t.rjw.toNat ≤ t.ps2.toNat ∧
    1 ≤ t.brp.toNat ∧ t.brp.toNat ≤ 1024 ∧ (t.ts = true ↔ rate.toNat ≤ 125000) ∧
    consistencyMask e t rate = 0

/-- R180: TSET writes the selected register when the value fits it and refuses it otherwise; T_OK is refused; nothing
else changes, T_OK, S_RATE and the other fields included. -/
def Obligations.TsetWritesOneTimingRegister : Prop :=
  ∀ (v : Nat) (s : State), v < 65536 →
    exec (.tset .brp v) s = .next { s with timing := { s.timing with brp := BitVec.ofNat 16 v }
                                           status := Status.executed true false, res := 0 } ∧
    (v ≤ 255 →
      exec (.tset .ps1 v) s = .next { s with timing := { s.timing with ps1 := BitVec.ofNat 8 v }
                                             status := Status.executed true false, res := 0 } ∧
      exec (.tset .ps2 v) s = .next { s with timing := { s.timing with ps2 := BitVec.ofNat 8 v }
                                             status := Status.executed true false, res := 0 } ∧
      exec (.tset .rjw v) s = .next { s with timing := { s.timing with rjw := BitVec.ofNat 8 v }
                                             status := Status.executed true false, res := 0 }) ∧
    (255 < v → ∀ f, f = .ps1 ∨ f = .ps2 ∨ f = .rjw →
      exec (.tset f v) s = .next { s with status := Status.afterRefusal }) ∧
    (v ≤ 1 → exec (.tset .ts v) s = .next { s with timing := { s.timing with ts := decide (v = 1) }
                                                   status := Status.executed true false, res := 0 }) ∧
    (1 < v → exec (.tset .ts v) s = .next { s with status := Status.afterRefusal }) ∧
    exec (.tset .ok v) s = .next { s with status := Status.afterRefusal }

/-- R182, 10_state.md R30: SSET writes the selected setting when the value is in its range (a queue size at most
min(65535, QMAX)) and refuses it otherwise; S_RATE and S_TOL are refused; nothing else changes. -/
def Obligations.SsetWritesOneSetting : Prop :=
  ∀ (v : Nat) (s : State), v < 65536 →
    (v ≤ s.cfg.qmax →
      exec (.sset .rx0sz v) s = .next { s with settings := { s.settings with rx0sz := BitVec.ofNat 16 v }
                                               status := Status.executed true false, res := 0 } ∧
      exec (.sset .rx1sz v) s = .next { s with settings := { s.settings with rx1sz := BitVec.ofNat 16 v }
                                               status := Status.executed true false, res := 0 } ∧
      exec (.sset .txsz v) s = .next { s with settings := { s.settings with txsz := BitVec.ofNat 16 v }
                                              status := Status.executed true false, res := 0 }) ∧
    (s.cfg.qmax < v → ∀ f, f = .rx0sz ∨ f = .rx1sz ∨ f = .txsz →
      exec (.sset f v) s = .next { s with status := Status.afterRefusal }) ∧
    (v ≤ 3 → exec (.sset .mode v) s = .next { s with settings := { s.settings with mode := BitVec.ofNat 2 v }
                                                     status := Status.executed true false, res := 0 }) ∧
    (3 < v → exec (.sset .mode v) s = .next { s with status := Status.afterRefusal }) ∧
    (v ≤ 1 →
      exec (.sset .txprio v) s = .next { s with settings := { s.settings with txprio := decide (v = 1) }
                                                status := Status.executed true false, res := 0 } ∧
      exec (.sset .oc v) s = .next { s with settings := { s.settings with oc := decide (v = 1) }
                                            status := Status.executed true false, res := 0 }) ∧
    (1 < v → ∀ f, f = .txprio ∨ f = .oc → exec (.sset f v) s = .next { s with status := Status.afterRefusal }) ∧
    (∀ f, f = .rate ∨ f = .tol → exec (.sset f v) s = .next { s with status := Status.afterRefusal })

/-- R181, R183: TGET and SGET return the selected register, zero-extended, and change only STATUS and RES. -/
def Obligations.TgetAndSgetReturnTheSelectedRegister : Prop :=
  ∀ s : State,
    (∀ f, ∃ r : BitVec 64, exec (.tget f) s = .next { s with status := Status.executed true false, res := r } ∧
      r.toNat = match f with
        | .brp => s.timing.brp.toNat
        | .ps1 => s.timing.ps1.toNat
        | .ps2 => s.timing.ps2.toNat
        | .rjw => s.timing.rjw.toNat
        | .ts => s.timing.ts.toNat
        | .ok => s.timing.ok.toNat) ∧
    (∀ f, ∃ r : BitVec 64, exec (.sget f) s = .next { s with status := Status.executed true false, res := r } ∧
      r.toNat = match f with
        | .rx0sz => s.settings.rx0sz.toNat
        | .rx1sz => s.settings.rx1sz.toNat
        | .txsz => s.settings.txsz.toNat
        | .mode => s.settings.mode.toNat
        | .txprio => s.settings.txprio.toNat
        | .oc => s.settings.oc.toNat
        | .rate => s.settings.rate.toNat
        | .tol => s.settings.tol.toNat)

/-- R185: TCHECK returns the mask, OK = 1 exactly when it is 0, and each of the ten flags stands at its own bit exactly
when its own condition holds (ten independent flags, the ninth guarded by T_PS2 ≠ 0); no other bit is ever set. -/
def Obligations.TcheckFlagsAreTheTenConditions : Prop :=
  ∀ s : State, s.cfg.wf →
    ∃ m : BitVec 64,
      exec .tcheck s = .next { s with status := Status.executed (decide (m = 0)) false, res := m } ∧
      (m.getLsbD s.cfg.errBit.brpZero = true ↔ s.timing.brp.toNat = 0) ∧
      (m.getLsbD s.cfg.errBit.brpBig = true ↔ 1024 < s.timing.brp.toNat) ∧
      (m.getLsbD s.cfg.errBit.ps1Zero = true ↔ s.timing.ps1.toNat = 0) ∧
      (m.getLsbD s.cfg.errBit.ps1Big = true ↔ 16 < s.timing.ps1.toNat) ∧
      (m.getLsbD s.cfg.errBit.ps2Zero = true ↔ s.timing.ps2.toNat = 0) ∧
      (m.getLsbD s.cfg.errBit.ps2Big = true ↔ 8 < s.timing.ps2.toNat) ∧
      (m.getLsbD s.cfg.errBit.rjwZero = true ↔ s.timing.rjw.toNat = 0) ∧
      (m.getLsbD s.cfg.errBit.rjwBig = true ↔ 4 < s.timing.rjw.toNat) ∧
      (m.getLsbD s.cfg.errBit.rjwGtPs2 = true ↔ s.timing.ps2.toNat ≠ 0 ∧ s.timing.ps2.toNat < s.timing.rjw.toNat) ∧
      (m.getLsbD s.cfg.errBit.ts = true ↔
        s.timing.ts = true ∧ (125000 < s.settings.rate.toNat ∨ s.timing.ps1.toNat = 1)) ∧
      m.getLsbD s.cfg.errBit.tooFar = false ∧
      ∀ p, p ∉ s.cfg.errBit.positions → m.getLsbD p = false

/-- R186: on any configuration RESOLVE produced, writing 0 to T_PS2 makes the mask exactly the flag "phase segment 2 is
zero". -/
def Obligations.ZeroPhaseSegment2RaisesItsFlagAlone : Prop :=
  ∀ (clk tol : Nat) (rate : Word) (e : ErrBits), rate ≠ 0 →
    consistencyMask e { resolveTiming clk rate.toNat tol with ps2 := 0 } rate = 1#64 <<< e.ps2Zero

/-- R190, R191, R192, R193: the four queries, with tq = 1 + PS1 + PS2 and W = S_RATE · tq · BRP; TRATE refuses BRP = 0
and TPPM refuses W = 0. -/
def Obligations.QueriesReturnTheirFormulas : Prop :=
  ∀ (s : State) (tq w : Nat), tq = 1 + s.timing.ps1.toNat + s.timing.ps2.toNat →
    w = s.settings.rate.toNat * tq * s.timing.brp.toNat →
    (s.timing.brp = 0 → exec .trate s = .next { s with status := Status.afterRefusal }) ∧
    (s.timing.brp ≠ 0 → exec .trate s = .next { s with
      status := Status.executed true false, res := BitVec.ofNat 64 (s.cfg.clk.toNat / (s.timing.brp.toNat * tq)) }) ∧
    (∀ x : Bool, x = decide (s.cfg.clk.toNat = s.timing.brp.toNat * s.settings.rate.toNat * tq) →
      exec .texact s = .next { s with status := Status.executed x false, res := if x then 1 else 0 }) ∧
    (w = 0 → exec .tppm s = .next { s with status := Status.afterRefusal }) ∧
    (w ≠ 0 → exec .tppm s = .next { s with
      status := Status.executed true false
      res := BitVec.ofNat 64 (((s.cfg.clk.toNat : Int) - (w : Int)).natAbs * 1000000 / w) }) ∧
    exec .tsample s = .next { s with
      status := Status.executed true false, res := BitVec.ofNat 64 ((1 + s.timing.ps1.toNat) * 100 / tq) }

/-- R192: after a RESOLVE that set T_OK, TPPM answers a value at most S_TOL; and in every configuration TPPM admits, its
exact quotient |CLK - W| * 1000000 / W is below 2^52, so the 64 bits of RES hold it. -/
def Obligations.CloseEnoughBoundsThePpmDeviation : Prop :=
  (∀ s t : State, s.a[0] ≠ 0 → exec .resolve s = .next t → t.timing.ok = true →
    ∃ r : BitVec 64, exec .tppm t = .next { t with status := Status.executed true false, res := r } ∧
      r.toNat ≤ t.settings.tol.toNat) ∧
  (∀ s : State, s.settings.rate ≠ 0 → s.timing.brp ≠ 0 →
    absDiff s.cfg.clk.toNat s.wishedClock * 1000000 / s.wishedClock < 2 ^ 52 ∧
    ∃ r : BitVec 64, exec .tppm s = .next { s with status := Status.executed true false, res := r } ∧
      r.toNat = absDiff s.cfg.clk.toNat s.wishedClock * 1000000 / s.wishedClock)

/-! ## Filter bank -/

/-- 43_filter_bank.md R216, R211, R212: FSTDMASK either consumes the next slot (two halves per word, 16-bit dual, mask
mode, two callbacks routed to FIFO k) or changes only STATUS and RES. The model's choices: a callback keeps the low W_CB
bits of its argument (log entry 4), and the form in which FLAYOUT places the four halves in a slot (log entry 20). -/
def Obligations.FstdmaskEncodesOneSlotOrFails : Prop :=
  ∀ (k : FifoId) (s : State) (valid : Prop) (i : Nat) (bits : BitVec 64), i = s.bank.count.toNat →
    (valid ↔ s.a[0].toNat ≤ 0x7FF ∧ s.a[1].toNat ≤ 0x7FF ∧ s.a[4].toNat ≤ 0x7FF ∧ s.a[5].toNat ≤ 0x7FF ∧
      s.a[0] &&& s.a[1] = s.a[0] ∧ s.a[4] &&& s.a[5] = s.a[4] ∧ s.a[2].toNat ≤ 2 ∧ s.a[6].toNat ≤ 2) →
    bits = slotBits s.cfg.filterLayout.dualMask [
      filterHalf s.cfg.filterLayout s.a[0] (decide (s.a[2] = 1)) false,
      filterHalf s.cfg.filterLayout s.a[1] (decide (s.a[2] ≠ 2)) true,
      filterHalf s.cfg.filterLayout s.a[4] (decide (s.a[6] = 1)) false,
      filterHalf s.cfg.filterLayout s.a[5] (decide (s.a[6] ≠ 2)) true] →
    encode (.fstdmask k) = .command (mkWord 0x30 k.code 0) ∧
    (i = 14 ∨ ¬ valid →
      exec (.fstdmask k) s = .next { s with status := Status.executed false false, res := 0 }) ∧
    (i < 14 → valid →
      exec (.fstdmask k) s = .next { (s.setCb k ((s.cb k).append [s.a[3].toNat % 2 ^ s.cfg.wCb, s.a[7].toNat % 2 ^ s.cfg.wCb])) with
        bank := { count := s.bank.count + 1
                  w1 := s.bank.w1.setIfInBounds i (bits.extractLsb' 0 32)
                  w2 := s.bank.w2.setIfInBounds i (bits.extractLsb' 32 32)
                  scale := setBit s.bank.scale i false
                  mode := setBit s.bank.mode i false
                  fifo := setBit s.bank.fifo i (decide (k = .fifo1)) }
        status := Status.executed true false
        res := BitVec.ofNat 64 i })

/-- R217, R211, R212: FSTDQUAD either consumes the next slot (four halves, 16-bit dual, list mode, four callbacks) or
changes only STATUS and RES. The model's choices: a callback keeps the low W_CB bits of its argument (log entry 4), and the
form in which FLAYOUT places the four halves in a slot (log entry 20). -/
def Obligations.FstdquadEncodesOneSlotOrFails : Prop :=
  ∀ (k : FifoId) (s : State) (valid : Prop) (i : Nat) (bits : BitVec 64), i = s.bank.count.toNat →
    (valid ↔ s.a[0].toNat ≤ 0x7FF ∧ s.a[3].toNat ≤ 0x7FF ∧ s.a[6].toNat ≤ 0x7FF ∧ s.a[9].toNat ≤ 0x7FF ∧
      s.a[1].toNat ≤ 1 ∧ s.a[4].toNat ≤ 1 ∧ s.a[7].toNat ≤ 1 ∧ s.a[10].toNat ≤ 1) →
    bits = slotBits s.cfg.filterLayout.dualList [
      filterHalf s.cfg.filterLayout s.a[0] (decide (s.a[1] = 1)) false,
      filterHalf s.cfg.filterLayout s.a[3] (decide (s.a[4] = 1)) false,
      filterHalf s.cfg.filterLayout s.a[6] (decide (s.a[7] = 1)) false,
      filterHalf s.cfg.filterLayout s.a[9] (decide (s.a[10] = 1)) false] →
    encode (.fstdquad k) = .command (mkWord 0x31 k.code 0) ∧
    (i = 14 ∨ ¬ valid →
      exec (.fstdquad k) s = .next { s with status := Status.executed false false, res := 0 }) ∧
    (i < 14 → valid →
      exec (.fstdquad k) s = .next { (s.setCb k ((s.cb k).append [s.a[2].toNat % 2 ^ s.cfg.wCb, s.a[5].toNat % 2 ^ s.cfg.wCb,
          s.a[8].toNat % 2 ^ s.cfg.wCb, s.a[11].toNat % 2 ^ s.cfg.wCb])) with
        bank := { count := s.bank.count + 1
                  w1 := s.bank.w1.setIfInBounds i (bits.extractLsb' 0 32)
                  w2 := s.bank.w2.setIfInBounds i (bits.extractLsb' 32 32)
                  scale := setBit s.bank.scale i false
                  mode := setBit s.bank.mode i true
                  fifo := setBit s.bank.fifo i (decide (k = .fifo1)) }
        status := Status.executed true false
        res := BitVec.ofNat 64 i })

/-- R218, R211, R212: FEXTMASK either consumes the next slot (identifier word and mask word, 32-bit single, mask mode,
one callback) or changes only STATUS and RES. The model's choices: a callback keeps the low W_CB bits of its argument (log
entry 4), and the form in which FLAYOUT places the two words in a slot (log entry 20). -/
def Obligations.FextmaskEncodesOneSlotOrFails : Prop :=
  ∀ (k : FifoId) (s : State) (valid : Prop) (i : Nat) (bits : BitVec 64), i = s.bank.count.toNat →
    (valid ↔ s.a[0].toNat ≤ 0x1FFFFFFF ∧ s.a[1].toNat ≤ 0x1FFFFFFF ∧ s.a[0] &&& s.a[1] = s.a[0] ∧
      s.a[2].toNat ≤ 2) →
    bits = slotBits s.cfg.filterLayout.singleMask [
      filterWord s.cfg.filterLayout s.a[0] true (decide (s.a[2] = 1)),
      filterWord s.cfg.filterLayout s.a[1] true (decide (s.a[2] ≠ 2))] →
    encode (.fextmask k) = .command (mkWord 0x32 k.code 0) ∧
    (i = 14 ∨ ¬ valid →
      exec (.fextmask k) s = .next { s with status := Status.executed false false, res := 0 }) ∧
    (i < 14 → valid →
      exec (.fextmask k) s = .next { (s.setCb k ((s.cb k).append [s.a[3].toNat % 2 ^ s.cfg.wCb])) with
        bank := { count := s.bank.count + 1
                  w1 := s.bank.w1.setIfInBounds i (bits.extractLsb' 0 32)
                  w2 := s.bank.w2.setIfInBounds i (bits.extractLsb' 32 32)
                  scale := setBit s.bank.scale i true
                  mode := setBit s.bank.mode i false
                  fifo := setBit s.bank.fifo i (decide (k = .fifo1)) }
        status := Status.executed true false
        res := BitVec.ofNat 64 i })

/-- R219, R211, R212: FEXTDUAL either consumes the next slot (two identifier words, 32-bit single, list mode, two
callbacks) or changes only STATUS and RES. The model's choices: a callback keeps the low W_CB bits of its argument (log
entry 4), and the form in which FLAYOUT places the two words in a slot (log entry 20). -/
def Obligations.FextdualEncodesOneSlotOrFails : Prop :=
  ∀ (k : FifoId) (s : State) (valid : Prop) (i : Nat) (bits : BitVec 64), i = s.bank.count.toNat →
    (valid ↔ s.a[0].toNat ≤ 0x1FFFFFFF ∧ s.a[3].toNat ≤ 0x1FFFFFFF ∧ s.a[1].toNat ≤ 1 ∧ s.a[4].toNat ≤ 1) →
    bits = slotBits s.cfg.filterLayout.singleList [
      filterWord s.cfg.filterLayout s.a[0] true (decide (s.a[1] = 1)),
      filterWord s.cfg.filterLayout s.a[3] true (decide (s.a[4] = 1))] →
    encode (.fextdual k) = .command (mkWord 0x33 k.code 0) ∧
    (i = 14 ∨ ¬ valid →
      exec (.fextdual k) s = .next { s with status := Status.executed false false, res := 0 }) ∧
    (i < 14 → valid →
      exec (.fextdual k) s = .next { (s.setCb k ((s.cb k).append [s.a[2].toNat % 2 ^ s.cfg.wCb, s.a[5].toNat % 2 ^ s.cfg.wCb])) with
        bank := { count := s.bank.count + 1
                  w1 := s.bank.w1.setIfInBounds i (bits.extractLsb' 0 32)
                  w2 := s.bank.w2.setIfInBounds i (bits.extractLsb' 32 32)
                  scale := setBit s.bank.scale i true
                  mode := setBit s.bank.mode i true
                  fifo := setBit s.bank.fifo i (decide (k = .fifo1)) }
        status := Status.executed true false
        res := BitVec.ofNat 64 i })

/-- R213, 20_memory.md R75, R76: with the default layout (the spec's general knowledge, log entry 20) the half of an
11-bit value is (v << 5) | (r << 4) | (e << 3), the word of a 29-bit value is (v << 3) | (e << 2) | (r << 1), halves stand
two to a word, the first lower, and words one to a word; a bitmap write changes its own bit alone; appending callback
references writes them after the old ones in order and advances the length. -/
def Obligations.FilterWordsAndCallbacksHaveTheirPlaces : Prop :=
  (∀ (v : Word) (r e : Bool), v.toNat ≤ 0x7FF →
    (filterHalf {} v r e).toNat = v.toNat * 2 ^ 5 + r.toNat * 2 ^ 4 + e.toNat * 2 ^ 3) ∧
  (∀ (v : Word) (e r : Bool), v.toNat ≤ 0x1FFFFFFF →
    (filterWord {} v e r).toNat = v.toNat * 2 ^ 3 + e.toNat * 2 ^ 2 + r.toNat * 2) ∧
  (∀ (l : FilterLayout) (v : Word) (r e : Bool), (filterHalf l v r e).toNat < 2 ^ 16) ∧
  (∀ (l : FilterLayout) (a b c d : Word), l = {} →
    a.toNat < 2 ^ 16 → b.toNat < 2 ^ 16 → c.toNat < 2 ^ 16 → d.toNat < 2 ^ 16 →
    (slotBits l.dualMask [a, b, c, d]).toNat = a.toNat + 2 ^ 16 * b.toNat + 2 ^ 32 * (c.toNat + 2 ^ 16 * d.toNat) ∧
    (slotBits l.dualList [a, b, c, d]).toNat = a.toNat + 2 ^ 16 * b.toNat + 2 ^ 32 * (c.toNat + 2 ^ 16 * d.toNat)) ∧
  (∀ (l : FilterLayout) (a b : Word), l = {} →
    (slotBits l.singleMask [a, b]).toNat = a.toNat + 2 ^ 32 * b.toNat ∧
    (slotBits l.singleList [a, b]).toNat = a.toNat + 2 ^ 32 * b.toNat) ∧
  (∀ (b : BitVec 14) (i j : Nat) (x : Bool), i < 14 →
    (setBit b i x).getLsbD j = if j = i then x else b.getLsbD j) ∧
  (∀ (c : CallbackArray) (cs : List Nat), c.len + cs.length ≤ c.refs.length →
    (c.append cs).len = c.len + cs.length ∧ (c.append cs).refs.length = c.refs.length ∧
    ∀ j, (c.append cs).refs[j]? =
      if c.len ≤ j ∧ j < c.len + cs.length then cs[j - c.len]? else c.refs[j]?)

/-- R224, R225, 30_encoding.md R111: FCOUNT returns F_COUNT; FGET returns the selected element when the index is inside
the selected object and is refused otherwise; both change only STATUS and RES. That the last index of CB0 and CB1 is
NCB - 1 where NCB is not 56 (R225 says 55) is the model's choice (log entry 4). -/
def Obligations.FcountAndFgetReadTheBank : Prop :=
  ∀ (s : State) (i : Nat),
    exec .fcount s = .next { s with status := Status.executed true false, res := s.bank.count.setWidth 64 } ∧
    (∀ h : i < 14,
      exec (.fget .w1 i) s = .next { s with status := Status.executed true false, res := s.bank.w1[i].setWidth 64 } ∧
      exec (.fget .w2 i) s = .next { s with status := Status.executed true false, res := s.bank.w2[i].setWidth 64 }) ∧
    (∀ r : Nat, i < s.cfg.ncb → s.cb0.refs[i]? = some r →
      exec (.fget .cb0 i) s = .next { s with status := Status.executed true false, res := BitVec.ofNat 64 r }) ∧
    (∀ r : Nat, i < s.cfg.ncb → s.cb1.refs[i]? = some r →
      exec (.fget .cb1 i) s = .next { s with status := Status.executed true false, res := BitVec.ofNat 64 r }) ∧
    (s.Inv → (i < s.cfg.ncb ↔ i < s.cb0.refs.length) ∧ (i < s.cfg.ncb ↔ i < s.cb1.refs.length)) ∧
    exec (.fget .scale 0) s = .next { s with status := Status.executed true false, res := s.bank.scale.setWidth 64 } ∧
    exec (.fget .mode 0) s = .next { s with status := Status.executed true false, res := s.bank.mode.setWidth 64 } ∧
    exec (.fget .fifo 0) s = .next { s with status := Status.executed true false, res := s.bank.fifo.setWidth 64 } ∧
    exec (.fget .cb0Len 0) s = .next { s with status := Status.executed true false, res := BitVec.ofNat 64 s.cb0.len } ∧
    exec (.fget .cb1Len 0) s = .next { s with status := Status.executed true false, res := BitVec.ofNat 64 s.cb1.len } ∧
    (14 ≤ i → ∀ what, what = .w1 ∨ what = .w2 →
      exec (.fget what i) s = .next { s with status := Status.afterRefusal }) ∧
    (s.cfg.ncb ≤ i → ∀ what, what = .cb0 ∨ what = .cb1 →
      exec (.fget what i) s = .next { s with status := Status.afterRefusal }) ∧
    (i ≠ 0 → ∀ what, what = .scale ∨ what = .mode ∨ what = .fifo ∨ what = .cb0Len ∨ what = .cb1Len →
      exec (.fget what i) s = .next { s with status := Status.afterRefusal })

/-! ## Driver -/

/-- 60_exceptions.md R284, the whole table: each of these commands, in the state or with the operands its row names, changes
only STATUS (REFUSED 1, the other three flags 0). (FGET's bound for CB0 and CB1 where NCB is not 56: log entry 4.) -/
def Obligations.RefusedCommandsChangeOnlyStatus : Prop :=
  ∀ (s : State) (q : QueueId) (n v : Nat) (f : SField),
    (s.dState = .initializing ∨ s.dState = .running →
      ∀ i, i = .qinit q n ∨ i = .qappend q ∨ i = .qremove q ∨ i = .qfree q →
        exec i s = .next { s with status := Status.afterRefusal }) ∧
    (s.cfg.qmax < n → exec (.qinit q n) s = .next { s with status := Status.afterRefusal }) ∧
    (s.a[0] = 0 → exec .resolve s = .next { s with status := Status.afterRefusal }) ∧
    exec (.tset .ok v) s = .next { s with status := Status.afterRefusal } ∧
    (255 < v → ∀ g, g = .ps1 ∨ g = .ps2 ∨ g = .rjw ∨ g = .ts →
      exec (.tset g v) s = .next { s with status := Status.afterRefusal }) ∧
    (1 < v → exec (.tset .ts v) s = .next { s with status := Status.afterRefusal }) ∧
    (f = .rate ∨ f = .tol → exec (.sset f v) s = .next { s with status := Status.afterRefusal }) ∧
    (s.cfg.qmax < v → f = .rx0sz ∨ f = .rx1sz ∨ f = .txsz →
      exec (.sset f v) s = .next { s with status := Status.afterRefusal }) ∧
    (3 < v → exec (.sset .mode v) s = .next { s with status := Status.afterRefusal }) ∧
    (1 < v → f = .txprio ∨ f = .oc → exec (.sset f v) s = .next { s with status := Status.afterRefusal }) ∧
    (s.timing.brp = 0 → exec .trate s = .next { s with status := Status.afterRefusal }) ∧
    (s.settings.rate = 0 ∨ s.timing.brp = 0 → exec .tppm s = .next { s with status := Status.afterRefusal }) ∧
    (∀ what, fgetSize s.cfg.ncb what ≤ n → exec (.fget what n) s = .next { s with status := Status.afterRefusal }) ∧
    (s.dState ≠ .uninitialized → exec .drvBegin s = .next { s with status := Status.afterRefusal }) ∧
    (s.dState ≠ .running → ∀ i ∈ runningOnly, exec i s = .next { s with status := Status.afterRefusal })

/-- 44_driver.md R241: in `uninitialized`, when the mask or the closeness check reports anything, BEGIN returns the OR of
all of it and changes only STATUS and RES. -/
def Obligations.BeginReportsEveryViolation : Prop :=
  ∀ (s : State) (code : BitVec 64), s.dState = .uninitialized →
    code = (consistencyMask s.cfg.errBit s.timing s.settings.rate |||
      if s.timing.ok then 0 else 1#64 <<< s.cfg.errBit.tooFar) →
    code ≠ 0 →
    exec .drvBegin s = .next { s with status := Status.executed false false, res := code }

/-- R242, R243: a BEGIN whose code is 0 sets the three capacities, empties the queues, copies the callback arrays, emits
the four events in order and stands at wait 1; nothing else changes. The capacities are the settings, whole, in every state
that meets the invariant (log entry 4). -/
def Obligations.BeginAllocatesAndEntersConfiguration : Prop :=
  ∀ s : State, s.dState = .uninitialized → s.timing.ok = true →
    consistencyMask s.cfg.errBit s.timing s.settings.rate = 0 →
    (∀ v : Nat, s.Inv → v = s.settings.rx0sz.toNat ∨ v = s.settings.rx1sz.toNat ∨ v = s.settings.txsz.toNat →
      v % 2 ^ s.cfg.wIdx = v) ∧
    exec .drvBegin s = .next { s with
      rxq0 := { cap := s.settings.rx0sz.toNat % 2 ^ s.cfg.wIdx, rd := 0, cnt := 0, peak := 0, store := [] }
      rxq1 := { cap := s.settings.rx1sz.toNat % 2 ^ s.cfg.wIdx, rd := 0, cnt := 0, peak := 0, store := [] }
      txq := { cap := s.settings.txsz.toNat % 2 ^ s.cfg.wIdx, rd := 0, cnt := 0, peak := 0, store := [] }
      dcb0 := s.cb0
      dcb1 := s.cb1
      dState := .initializing
      seq := .enterConfig
      events := s.events ++ [.pClkEn, .pReset, .pPinCfg s.settings.oc, .pCfgEnter] }

/-- R244 to R247: the rest of BEGIN. At wait 1 with `inak = 1` MAIN emits P_TIMING, P_FILTERS (the slots in use, or the
default bank), P_IER and P_CFG_LEAVE; at wait 2 with `inak = 0` it moves on to wait 3 in a step that only makes SEQ 3,
whatever `tme[0]` is (the model's reading of R247, log entry 15); at wait 3 with `tme[0] = 1` it emits N_UNMASK, opens the
three gates and is running with RES 0 and OK 1. MAIN's turn is the next one, or no turn is left. -/
def Obligations.BeginProgramsThePeripheralAndRuns : Prop :=
  ∀ (s : State) (ts : List Turn) (banks : List Bank), s.mainNext ts →
    (s.bank.count = 0 → banks = [{ w1 := 0, w2 := 0, scale := true, mode := false, fifo := false }]) →
    (s.bank.count ≠ 0 → banks = (List.range s.bank.count.toNat).map fun i =>
      { w1 := s.bank.w1[i]?.getD 0, w2 := s.bank.w2[i]?.getD 0, scale := s.bank.scale.getLsbD i,
        mode := s.bank.mode.getLsbD i, fifo := s.bank.fifo.getLsbD i }) →
    (s.seq = .enterConfig → s.env.inak = true →
      step s = .next { s with
        turns := ts
        seq := .leaveConfig
        events := s.events ++ [
          .pTiming s.timing.brp.toNat s.timing.ps1.toNat s.timing.ps2.toNat s.timing.rjw.toNat s.timing.ts.toNat
            s.settings.mode.toNat s.settings.txprio.toNat,
          .pFilters banks, .pIer [.fmp0, .full0, .ovr0, .fmp1, .full1, .ovr1, .tme], .pCfgLeave] }) ∧
    (s.seq = .leaveConfig → s.env.inak = false → step s = .next { s with turns := ts, seq := .mailbox0 }) ∧
    (s.seq = .mailbox0 → s.env.tme0 = true →
      step s = .next { s with
        turns := ts
        events := s.events ++ [.nUnmask]
        irqEn := 0b111
        dState := .running
        seq := .idle
        status := Status.executed true false
        res := 0 })

/-- 70_reset_and_hazards.md R331: at a wait of BEGIN that is not answered MAIN has no step. The model gives a turn of MAIN
a step all the same, which changes nothing but the schedule: the turn is used up, and with no turn left `step` answers the
state unchanged, host actions waiting (log entry 14). -/
def Obligations.BeginHoldsAtAnUnansweredWait : Prop :=
  ∀ s : State,
    (s.seq = .enterConfig ∧ s.env.inak = false) ∨ (s.seq = .leaveConfig ∧ s.env.inak = true) ∨
      (s.seq = .mailbox0 ∧ s.env.tme0 = false) →
    (∀ ts, s.turns = .main :: ts → step s = .next { s with turns := ts }) ∧
    (s.turns = [] → step s = .next s)

/-- R248: END is refused unless running; it masks, closes the gates, frees the three queues and stops; nothing else is
undone. -/
def Obligations.EndMasksAndFreesTheQueues : Prop :=
  ∀ s : State,
    (s.dState ≠ .running → exec .drvEnd s = .next { s with status := Status.afterRefusal }) ∧
    (s.dState = .running → exec .drvEnd s = .next { s with
      events := s.events ++ [.nMask]
      irqEn := 0
      rxq0 := { cap := 0, rd := 0, cnt := 0, peak := 0, store := [] }
      rxq1 := { cap := 0, rd := 0, cnt := 0, peak := 0, store := [] }
      txq := { cap := 0, rd := 0, cnt := 0, peak := 0, store := [] }
      dState := .stopped
      status := Status.executed true false
      res := 0 })

/-- R251: destination index 0. With TXQ empty and mailbox 0 free the frame goes straight to mailbox 0; else it is
appended to TXQ (code 0), or the code is 2 when TXQ is full and nothing else changes. That mailbox 0 reports busy in the
same step is the model's reading of 10_state.md R51 (a) (log entry 6). -/
def Obligations.SendQueuedPathAdmission : Prop :=
  ∀ s : State, s.dState = .running → s.operandFrame.idx = 0 → Memory.wf s.txq.store →
    (s.txq.cnt = 0 → s.env.tme0 = true →
      exec .send s = .next { s with
        events := s.events ++ [.pMbWrite .mb0 s.operandFrame]
        env := { s.env with tme0 := false }
        status := Status.executed true false
        res := 0 }) ∧
    (s.txq.cnt ≠ 0 ∨ s.env.tme0 = false → s.txq.cnt = s.txq.cap →
      exec .send s = .next { s with status := Status.executed false false, res := 2 }) ∧
    (s.txq.cnt ≠ 0 ∨ s.env.tme0 = false → s.txq.cnt ≠ s.txq.cap →
      ∃ q' : Queue,
        exec .send s = .next { s with txq := q', status := Status.executed true false, res := 0 } ∧
        q'.cap = s.txq.cap ∧ q'.rd = s.txq.rd ∧ q'.cnt = s.txq.cnt + 1 ∧
        q'.peak = max s.txq.peak q'.cnt ∧
        ∀ i, memRead q'.store i =
          if i = (s.txq.rd + s.txq.cnt) % s.txq.cap then some s.operandFrame
          else memRead s.txq.store i)

/-- R252: destination index 1 or 2, mailbox m. TEST answers code 2 when the mailbox is busy, and otherwise leaves MAIN
between its two steps with nothing else changed; WRITE writes the mailbox when it is still free and is the fault
mailbox_taken when it is not; with DIRECT_ATOMIC the two are one step. (The mailbox's busy report in the same step: log
entry 6.) -/
def Obligations.SendDirectPathTestsThenWrites : Prop :=
  (∀ (s : State) (m : Mailbox), s.dState = .running →
    (s.operandFrame.idx = 1 ∧ m = .mb1) ∨ (s.operandFrame.idx = 2 ∧ m = .mb2) →
    (s.env.tme m = false → exec .send s = .next { s with status := Status.executed false false, res := 2 }) ∧
    (s.env.tme m = true → s.cfg.directAtomic = false →
      exec .send s = .next { s with op := .sendWrite m s.operandFrame }) ∧
    (s.env.tme m = true → s.cfg.directAtomic = true →
      exec .send s = .next { s with
        events := s.events ++ [.pMbWrite m s.operandFrame]
        env := s.env.setTme m false
        op := .idle
        status := Status.executed true false
        res := 0 })) ∧
  (∀ (s : State) (m : Mailbox) (f : Frame) (ts : List Turn), s.seq = .idle → s.op = .sendWrite m f → s.mainNext ts →
    (s.env.tme m = true → step s = .next { s with
      turns := ts
      events := s.events ++ [.pMbWrite m f]
      env := s.env.setTme m false
      op := .idle
      status := Status.executed true false
      res := 0 }) ∧
    (s.env.tme m = false → step s = .fault .mailboxTaken))

/-- R250: SEND is refused unless running; the index of the Frame in FOP selects the queued path (0), the direct path to
mailbox 1 or 2, or, from 3 up, code 1 with no input sampled. Code 0 is answered exactly with the frame accepted: written to
mailbox 0 (TXQ empty, mailbox 0 free), appended to TXQ, or written to mailbox m, at once with DIRECT_ATOMIC and else by the
later step WRITE; code 2 when TXQ is full or mailbox m is busy. Codes 1 and 2 change only STATUS and RES, RES is the code,
OK tells code 0, and FOP stays. (A WRITE that finds the mailbox taken answers no code: it is the fault of R252.) -/
def Obligations.SendActsOnTheDestinationIndex : Prop :=
  (∀ (s : State) (f : Frame), f = s.operandFrame →
    encode .send = .command (mkWord 0x42 0 0) ∧
    (s.dState ≠ .running → exec .send s = .next { s with status := Status.afterRefusal }) ∧
    (s.dState = .running →
      (f.idx = 0 → exec .send s = .next (sendQueued f s) ∧
        (s.txq.cnt = 0 ∧ s.env.tme0 = true → ∃ t, exec .send s = .next t ∧ t.res = 0 ∧
          t.events = s.events ++ [.pMbWrite .mb0 f] ∧ t.txq = s.txq) ∧
        (¬ (s.txq.cnt = 0 ∧ s.env.tme0 = true) → s.txq.cnt ≠ s.txq.cap → ∃ t, exec .send s = .next t ∧ t.res = 0 ∧
          t.events = s.events ∧ s.txq.append f = some t.txq) ∧
        (¬ (s.txq.cnt = 0 ∧ s.env.tme0 = true) → s.txq.cnt = s.txq.cap →
          exec .send s = .next { s with status := Status.executed false false, res := 2 })) ∧
      (∀ m, f.idx = 1 ∧ m = .mb1 ∨ f.idx = 2 ∧ m = .mb2 → exec .send s = sendDirect m f s ∧
        (s.env.tme m = false → exec .send s = .next { s with status := Status.executed false false, res := 2 }) ∧
        (s.env.tme m = true → s.cfg.directAtomic = true → ∃ t, exec .send s = .next t ∧ t.res = 0 ∧
          t.events = s.events ++ [.pMbWrite m f]) ∧
        (s.env.tme m = true → s.cfg.directAtomic = false → exec .send s = .next { s with op := .sendWrite m f })) ∧
      (3 ≤ f.idx → exec .send s = .next { s with status := Status.executed false false, res := 1 }) ∧
      ∀ t, exec .send s = .next t → t.fop = s.fop ∧
        ((∃ m, t = { s with op := .sendWrite m f }) ∨
          ((t.res = 0 ∨ t.res = 1 ∨ t.res = 2) ∧ t.status = Status.executed (decide (t.res = 0)) false ∧
            (t.res ≠ 0 → t = { s with status := Status.executed false false, res := t.res }))))) ∧
  (∀ (s : State) (m : Mailbox) (f : Frame) (ts : List Turn), s.seq = .idle → s.op = .sendWrite m f → s.mainNext ts →
    (s.env.tme m = true → ∃ t, step s = .next t ∧ t.res = 0 ∧ t.status = Status.executed true false ∧
      t.events = s.events ++ [.pMbWrite m f] ∧ t.op = .idle ∧ t.fop = s.fop) ∧
    (s.env.tme m = false → step s = .fault .mailboxTaken))

/-- R254: RECVk is refused unless running; on an empty queue FRES keeps its value and OK is 0; otherwise the Frame at the
head of RXQk goes to FRES. -/
def Obligations.RecvYieldsTheOldestFrame : Prop :=
  ∀ (k : FifoId) (s : State),
    encode (recvCommand k) = .command (mkWord (0x43 + k.code) 0 0) ∧
    (s.dState ≠ .running → exec (recvCommand k) s = .next { s with status := Status.afterRefusal }) ∧
    (s.dState = .running → (s.queue (rxQueueOf k)).cnt = 0 →
      exec (recvCommand k) s = .next { s with status := Status.executed false false, res := 0 }) ∧
    (s.dState = .running → (s.queue (rxQueueOf k)).cnt ≠ 0 → (s.queue (rxQueueOf k)).Inv →
      ∃ (f : Frame) (q' : Queue),
        (s.queue (rxQueueOf k)).contents (rxQueueOf k) = f :: q'.contents (rxQueueOf k) ∧
        q'.cap = (s.queue (rxQueueOf k)).cap ∧ q'.peak = (s.queue (rxQueueOf k)).peak ∧
        q'.store = (s.queue (rxQueueOf k)).store ∧
        exec (recvCommand k) s = .next { (s.setQueue (rxQueueOf k) q') with
          fres := FrameRegs.pack s.cfg.wFmi f, status := Status.executed true true, res := 0 })

/-- R255, R256: DISPk is refused unless running; an empty queue ends it with OK 0; otherwise POP takes the oldest Frame F
off RXQk, and the next step of MAIN, CALL, emits CB_INVOKE exactly when F.idx is in range and a callback is bound, and
ends with OK 1, FRES untouched. -/
def Obligations.DispatchPopsThenInvokes : Prop :=
  (∀ (k : FifoId) (s : State),
    (s.dState ≠ .running → exec (dispCommand k) s = .next { s with status := Status.afterRefusal }) ∧
    (s.dState = .running → (s.queue (rxQueueOf k)).cnt = 0 →
      exec (dispCommand k) s = .next { s with op := .idle, status := Status.executed false false, res := 0 }) ∧
    (s.dState = .running → (s.queue (rxQueueOf k)).cnt ≠ 0 → (s.queue (rxQueueOf k)).Inv →
      ∃ (f : Frame) (q' : Queue),
        (s.queue (rxQueueOf k)).contents (rxQueueOf k) = f :: q'.contents (rxQueueOf k) ∧
        q'.cap = (s.queue (rxQueueOf k)).cap ∧ q'.peak = (s.queue (rxQueueOf k)).peak ∧
        q'.store = (s.queue (rxQueueOf k)).store ∧
        exec (dispCommand k) s = .next { (s.setQueue (rxQueueOf k) q') with op := .dispCall k f false })) ∧
  (∀ (k : FifoId) (f : Frame) (s : State) (ts : List Turn), s.seq = .idle → s.op = .dispCall k f false → s.mainNext ts →
    (∀ h : Nat, f.idx < (s.dcb k).len → (s.dcb k).refs[f.idx]? = some h → h ≠ 0 →
      step s = .next { s with
        turns := ts
        events := s.events ++ [.cbInvoke k f.idx h f]
        op := .idle
        status := Status.executed true false
        res := 0 }) ∧
    ((s.dcb k).len ≤ f.idx ∨ (s.dcb k).refs[f.idx]?.getD 0 = 0 →
      step s = .next { s with turns := ts, op := .idle, status := Status.executed true false, res := 0 }))

/-- R257: DISP is refused unless running and dispatches FIFO 0 and then FIFO 1, always both, OK telling whether either
yielded a frame. That the second POP is a step of its own after an empty FIFO 0 is the model's (log entry 13). -/
def Obligations.DispDispatchesBothFifos : Prop :=
  (∀ s : State,
    (s.dState ≠ .running → exec .disp s = .next { s with status := Status.afterRefusal }) ∧
    (s.dState = .running → s.rxq0.cnt = 0 → exec .disp s = .next { s with op := .dispSecond false }) ∧
    (s.dState = .running → s.rxq0.cnt ≠ 0 → s.rxq0.Inv →
      ∃ (f : Frame) (q' : Queue),
        s.rxq0.contents .rxq0 = f :: q'.contents .rxq0 ∧ q'.cap = s.rxq0.cap ∧ q'.peak = s.rxq0.peak ∧
        q'.store = s.rxq0.store ∧
        exec .disp s = .next { s with rxq0 := q', op := .dispCall .fifo0 f true })) ∧
  (∀ (f : Frame) (s : State) (ts : List Turn), s.seq = .idle → s.op = .dispCall .fifo0 f true → s.mainNext ts →
    ∃ es : List Event, step s = .next { s with turns := ts, events := s.events ++ es, op := .dispSecond true } ∧
      (∀ h : Nat, f.idx < s.dcb0.len → s.dcb0.refs[f.idx]? = some h → h ≠ 0 →
        es = [.cbInvoke .fifo0 f.idx h f]) ∧
      (s.dcb0.len ≤ f.idx ∨ s.dcb0.refs[f.idx]?.getD 0 = 0 → es = [])) ∧
  (∀ (yielded : Bool) (s : State) (ts : List Turn), s.seq = .idle → s.op = .dispSecond yielded → s.mainNext ts →
    (s.rxq1.cnt = 0 →
      step s = .next { s with turns := ts, op := .idle, status := Status.executed yielded false, res := 0 }) ∧
    (s.rxq1.cnt ≠ 0 → s.rxq1.Inv →
      ∃ (f : Frame) (q' : Queue),
        s.rxq1.contents .rxq1 = f :: q'.contents .rxq1 ∧ q'.cap = s.rxq1.cap ∧ q'.peak = s.rxq1.peak ∧
        q'.store = s.rxq1.store ∧
        step s = .next { s with turns := ts, rxq1 := q', op := .dispCall .fifo1 f true })) ∧
  (∀ (f : Frame) (s : State) (ts : List Turn), s.seq = .idle → s.op = .dispCall .fifo1 f true → s.mainNext ts →
    ∃ es : List Event,
      step s = .next { s with
        turns := ts, events := s.events ++ es, op := .idle, status := Status.executed true false, res := 0 } ∧
      (∀ h : Nat, f.idx < s.dcb1.len → s.dcb1.refs[f.idx]? = some h → h ≠ 0 →
        es = [.cbInvoke .fifo1 f.idx h f]) ∧
      (s.dcb1.len ≤ f.idx ∨ s.dcb1.refs[f.idx]?.getD 0 = 0 → es = []))

/-- R258, R259, 30_encoding.md R110: AVAILk is refused unless running and returns CNT[k] with OK telling non-empty;
DSTATE returns D_STATE + 16·SEQ + 256·IRQ_EN in any state; both change only STATUS and RES. -/
def Obligations.AvailAndDstateReport : Prop :=
  ∀ s : State,
    (∀ k : FifoId,
      (s.dState ≠ .running → exec (availCommand k) s = .next { s with status := Status.afterRefusal }) ∧
      (s.dState = .running → exec (availCommand k) s = .next { s with
        status := Status.executed (decide (0 < (s.queue (rxQueueOf k)).cnt)) false
        res := BitVec.ofNat 64 (s.queue (rxQueueOf k)).cnt })) ∧
    ∃ r : BitVec 64, exec .dstate s = .next { s with status := Status.executed true false, res := r } ∧
      r.toNat = s.dState.code + 16 * s.seq.code + 256 * s.irqEn.toNat

/-! ## Handlers -/

/-- 60_exceptions.md R286: H_RXk, its gate open. With a message pending the decoded frame is appended to RXQk, or dropped
when RXQk is full, and P_RXRELEASE is emitted either way; then P_CLRFULL and P_CLROVR follow when their flags were set;
nothing else changes. (What the three events do to the inputs: log entry 6.) -/
def Obligations.ReceiveHandlerAppendsAndReleases : Prop :=
  ∀ (k : FifoId) (s : State) (f : Frame) (q : Queue), s.irqEn.getLsbD k.code = true →
    q = s.queue (rxQueueOf k) → Memory.wf q.store →
    f = decodeRx s.cfg.rxLayout s.cfg.wFmi (s.env.rx k).rxs0 (s.env.rx k).rxs1 (s.env.rx k).rxd0 (s.env.rx k).rxd1 →
    ∃ q' : Queue,
      exec (rxIsr k) s = .next { (s.setQueue (rxQueueOf k) q') with
        events := s.events ++ (if (s.env.rx k).fmp then [.pRxRelease k] else []) ++
          (if (s.env.rx k).full then [.pClrFull k] else []) ++ (if (s.env.rx k).ovr then [.pClrOvr k] else [])
        env := s.env.setRx k { s.env.rx k with fmp := false, full := false, ovr := false } } ∧
      ((s.env.rx k).fmp = false ∨ q.cnt = q.cap → q' = q) ∧
      ((s.env.rx k).fmp = true → q.cnt ≠ q.cap →
        q'.cap = q.cap ∧ q'.rd = q.rd ∧ q'.cnt = q.cnt + 1 ∧ q'.peak = max q.peak q'.cnt ∧
        ∀ i, memRead q'.store i =
          if i = (q.rd + q.cnt) % q.cap then some f else memRead q.store i)

/-- R287, 20_memory.md R77: the fields of the decoded frame for the default layout (the spec's general knowledge, log entry
20), and the eight payload bytes of a frame. The model's: the index for widths other than 8, which goes on upward from bit 8
of the second status word (log entry 4), and the byte order of the payload (the spec's general knowledge, log entry 22,
PRESUMED). -/
def Obligations.ReceiveWordsDecodeFieldByField : Prop :=
  (∀ (w : Nat) (s0 s1 d0 d1 : Word),
    (s0.getLsbD 2 = true → (decodeRx {} w s0 s1 d0 d1).id.toNat = s0.toNat / 2 ^ 3) ∧
    (s0.getLsbD 2 = false → (decodeRx {} w s0 s1 d0 d1).id.toNat = s0.toNat / 2 ^ 21) ∧
    (decodeRx {} w s0 s1 d0 d1).ext = s0.getLsbD 2 ∧ (decodeRx {} w s0 s1 d0 d1).rtr = s0.getLsbD 1 ∧
    (decodeRx {} w s0 s1 d0 d1).len.toNat = s1.toNat % 2 ^ 4 ∧
    (decodeRx {} w s0 s1 d0 d1).idx = s1.toNat / 2 ^ 8 % 2 ^ w ∧
    (decodeRx {} w s0 s1 d0 d1).data0 = d0 ∧ (decodeRx {} w s0 s1 d0 d1).data1 = d1) ∧
  (∀ (f : Frame) (n : Nat),
    (n < 4 → (payloadByte f n).toNat = f.data0.toNat / 2 ^ (8 * n) % 2 ^ 8) ∧
    (4 ≤ n → n < 8 → (payloadByte f n).toNat = f.data1.toNat / 2 ^ (8 * (n - 4)) % 2 ^ 8))

/-- R289, R290: H_TX, its gate open. Without completion it does nothing; with completion and no free mailbox or an empty
TXQ it only clears the flag; with a free mailbox and a non-empty TXQ it moves the oldest frame to the mailbox `code`
names and clears the flag, and is the fault bad_code when `code` names no free mailbox. (What the events do to the
inputs: log entry 6.) -/
def Obligations.TransmitHandlerDrainsOneFrame : Prop :=
  ∀ s : State, s.irqEn.getLsbD 2 = true →
    (s.env.txc = false → exec .isrTx s = .next s) ∧
    (s.env.txc = true → (s.env.tme0 = false ∧ s.env.tme1 = false ∧ s.env.tme2 = false) ∨ s.txq.cnt = 0 →
      exec .isrTx s = .next { s with events := s.events ++ [.pClrTxc], env := { s.env with txc := false } }) ∧
    (s.env.txc = true → s.env.tme0 = true ∨ s.env.tme1 = true ∨ s.env.tme2 = true → s.txq.cnt ≠ 0 →
      (∀ m : Mailbox, s.env.tme m = true → (m = .mb0 ∧ s.env.code = 0) ∨ (m = .mb1 ∧ s.env.code = 1) ∨
          (m = .mb2 ∧ s.env.code = 2) → s.txq.Inv →
        ∃ (f : Frame) (q' : Queue),
          s.txq.contents .txq = f :: q'.contents .txq ∧ q'.cap = s.txq.cap ∧ q'.peak = s.txq.peak ∧
          q'.store = s.txq.store ∧
          exec .isrTx s = .next { s with
            txq := q'
            events := s.events ++ [.pMbWrite m f, .pClrTxc]
            env := { s.env.setTme m false with txc := false } }) ∧
      (s.env.code = 3 ∨ (s.env.code = 0 ∧ s.env.tme0 = false) ∨ (s.env.code = 1 ∧ s.env.tme1 = false) ∨
          (s.env.code = 2 ∧ s.env.tme2 = false) →
        exec .isrTx s = .fault .badCode))

/-- 10_state.md R47, 60_exceptions.md R292: a handler whose bit of IRQ_EN is 0 has no step; one with its bit 1 and none
of its conditions present does nothing. -/
def Obligations.GatedOrIdleHandlersDoNothing : Prop :=
  ∀ s : State,
    (∀ k : FifoId, s.irqEn.getLsbD k.code = false → exec (rxIsr k) s = .next s) ∧
    (s.irqEn.getLsbD 2 = false → exec .isrTx s = .next s) ∧
    (∀ k : FifoId, (s.env.rx k).fmp = false → (s.env.rx k).full = false → (s.env.rx k).ovr = false →
      exec (rxIsr k) s = .next s) ∧
    (s.env.txc = false → exec .isrTx s = .next s)

/-- 30_encoding.md R104: the packing of a Frame in four registers: every field at its bits, reserved bits written 0 and
ignored when read, so a packed Frame unpacks to itself. The index stands at bit 8 of word 1 up; for widths other than 8 that
is the model's choice (log entry 4). -/
def Obligations.FramePackingPlacesEveryField : Prop :=
  (∀ (w : Nat) (f : Frame), w ≤ 24 → f.idx < 2 ^ w → (FrameRegs.pack w f).unpack w = f ∧
    (FrameRegs.pack w f).w0.toNat = f.id.toNat + 2 ^ 29 * f.ext.toNat + 2 ^ 30 * f.rtr.toNat ∧
    (FrameRegs.pack w f).w1.toNat = f.len.toNat + 2 ^ 8 * f.idx ∧
    (FrameRegs.pack w f).w2 = f.data0 ∧ (FrameRegs.pack w f).w3 = f.data1) ∧
  (∀ (w : Nat) (r : FrameRegs),
    (r.unpack w).id.toNat = r.w0.toNat % 2 ^ 29 ∧ (r.unpack w).ext.toNat = r.w0.toNat / 2 ^ 29 % 2 ∧
    (r.unpack w).rtr.toNat = r.w0.toNat / 2 ^ 30 % 2 ∧ (r.unpack w).len.toNat = r.w1.toNat % 2 ^ 4 ∧
    (r.unpack w).idx = r.w1.toNat / 2 ^ 8 % 2 ^ w ∧ (r.unpack w).data0 = r.w2 ∧ (r.unpack w).data1 = r.w3)

/-! ## The whole machine -/

/-- The invariant of R353 holds right after reset, at power-on and for every consistent choice of the parameters. -/
def Obligations.ResetMeetsTheInvariant : Prop :=
  State.reset.Inv ∧ ∀ c : Config, c.wf → (State.resetWith c).Inv

/-- 70_reset_and_hazards.md R353 P3 to P6, 10_state.md R33, R35 to R37, R45 to R47: from every state that meets the
invariant, whoever steps, the next state meets it. -/
def Obligations.EveryStepKeepsTheInvariant : Prop :=
  ∀ s s' : State, s.Inv → step s = .next s' → s'.Inv

/-- R344: no step strands a queued frame: in a running state with TXQ non-empty some mailbox is busy or a completion is
pending. -/
def Obligations.QueuedFramesAreNeverStranded : Prop :=
  State.reset.NotStranded ∧
  ∀ s s' : State, s.Inv → s.NotStranded → step s = .next s' → s'.NotStranded

/-- 60_exceptions.md R299: with DIRECT_ATOMIC and a `code` that names a free mailbox whenever one is free (R51 b), no
step is a fault. -/
def Obligations.NoFaultWithAtomicSendsAndAnHonestCode : Prop :=
  ∀ (s : State) (r : Fault), s.Inv → s.cfg.directAtomic = true → s.env.codeNamesFree → step s ≠ .fault r

/-- 44_driver.md R260: reset apart, D_STATE moves only along uninitialized, initializing, running, stopped, SEQ only
along 0, 1, 2, 3, 0, and IRQ_EN changes only when D_STATE does. -/
def Obligations.DriverStateMovesOnlyForward : Prop :=
  ∀ s s' : State, s.Inv → (∀ ts, s.turns ≠ .reset :: ts) → step s = .next s' →
    s.dState.mayBecome s'.dState ∧ s.seq.mayBecome s'.seq ∧ (s'.dState = s.dState → s'.irqEn = s.irqEn)

/-- 60_exceptions.md R285, R295, 20_memory.md R88: a handler touches no host register, no setting, no timing or filter
register, no sequencing register, no parameter, nothing of the host's, no queue and no input but its own, and emits none but
its own events; the reserved code touches nothing. -/
def Obligations.HandlersTouchOnlyTheirQueueAndInputs : Prop :=
  ∀ (s s' : State) (v : BitVec 2) (ts : List Turn), s.turns = .strobe v :: ts → step s = .next s' →
    s'.status = s.status ∧ s'.res = s.res ∧ s'.fres = s.fres ∧ s'.fop = s.fop ∧ s'.a = s.a ∧
    s'.settings = s.settings ∧ s'.timing = s.timing ∧ s'.bank = s.bank ∧
    (∀ k, s'.cb k = s.cb k ∧ s'.dcb k = s.dcb k) ∧
    s'.dState = s.dState ∧ s'.seq = s.seq ∧ s'.irqEn = s.irqEn ∧ s'.op = s.op ∧
    s'.cfg = s.cfg ∧ s'.reads = s.reads ∧ s'.host = s.host ∧ s'.turns = ts ∧
    (v ≠ 0#2 → s'.rxq0 = s.rxq0 ∧ s'.env.fifo0 = s.env.fifo0) ∧
    (v ≠ 1#2 → s'.rxq1 = s.rxq1 ∧ s'.env.fifo1 = s.env.fifo1) ∧
    (v ≠ 2#2 → s'.txq = s.txq ∧ s'.env.tme0 = s.env.tme0 ∧ s'.env.tme1 = s.env.tme1 ∧ s'.env.tme2 = s.env.tme2 ∧
      s'.env.txc = s.env.txc) ∧
    s'.env.inak = s.env.inak ∧ s'.env.code = s.env.code ∧
    ∃ es : List Event, s'.events = s.events ++ es ∧
      (∀ k, v = BitVec.ofNat 2 (FifoId.code k) →
        ∀ e ∈ es, e = .pRxRelease k ∨ e = .pClrFull k ∨ e = .pClrOvr k) ∧
      (v = 2#2 → ∀ e ∈ es, e = .pClrTxc ∨ ∃ m f, e = .pMbWrite m f) ∧
      (v = 3#2 → es = [])

/-- 10_state.md R22, R23, R28, R38: over all instructions, A0..A11 and FOP are written by none, T_OK only by RESOLVE, the
driver's callback copies only by BEGIN. Over all steps, later steps of a command included and reset apart, A0..A11 and FOP
change only when the host writes one of their numbers, T_OK only when a RESOLVE is issued and the copies only when a BEGIN
is; and no step, reset included, changes the parameters. -/
def Obligations.RegistersHaveNoOtherWriter : Prop :=
  (∀ (i : Instr) (s s' : State), exec i s = .next s' →
    s'.a = s.a ∧ s'.fop = s.fop ∧ s'.cfg = s.cfg ∧ (i ≠ .resolve → s'.timing.ok = s.timing.ok) ∧
    (i ≠ .drvBegin → ∀ k, s'.dcb k = s.dcb k)) ∧
  (∀ s s' : State, step s = .next s' → s'.cfg = s.cfg) ∧
  (∀ s s' : State, (∀ ts, s.turns ≠ .reset :: ts) → step s = .next s' →
    (s'.a ≠ s.a → ∃ reg w hs, s.host = .write reg w :: hs ∧ 0x10 ≤ reg ∧ reg ≤ 0x1B) ∧
    (s'.fop ≠ s.fop → ∃ reg w hs, s.host = .write reg w :: hs ∧ 0x04 ≤ reg ∧ reg ≤ 0x07) ∧
    (s'.timing.ok ≠ s.timing.ok → ∃ w hs, s.host = .write 0 w :: hs ∧ decode (.command w) = .ok .resolve) ∧
    ∀ k, s'.dcb k ≠ s.dcb k → ∃ w hs, s.host = .write 0 w :: hs ∧ decode (.command w) = .ok .drvBegin)

/-- R37, for the default layout of 43_filter_bank.md R213 (the spec's general knowledge, log entry 20, PRESUMED): in every
slot in use that is a mask slot, each encoded base lies within its encoded mask, both read at that layout's places; every
step keeps this. -/
def Obligations.MaskSlotsContainTheirBases : Prop :=
  (∀ i, i < State.reset.bank.count.toNat → State.reset.bank.maskContained i) ∧
  ∀ s s' : State, s.Inv → s.cfg.filterLayout = {} → (∀ i, i < s.bank.count.toNat → s.bank.maskContained i) →
    step s = .next s' → s'.cfg.filterLayout = {} ∧ ∀ i, i < s'.bank.count.toNat → s'.bank.maskContained i
end

