-- ==== Sys2Proof/Laws/Memory.lean ====
section
/-!
SUPPORT. What the slot operations and the queue operations can do, said once (20_memory.md R72, R73; 41_frame_queue.md
R140, R149).
-/

namespace Sys2Proof
namespace Machine

/-! ### Slots -/

/-- The first entry of `memWrite m i f` is `(i, f)` or an entry of `m`; so is every other. -/
theorem mem_memWrite {m : Memory} {i : Nat} {f : Frame} {e : Nat × Frame} (h : e ∈ memWrite m i f) :
    e = (i, f) ∨ e ∈ m := by
  induction m with
  | nil => simpa [memWrite] using h
  | cons x rest ih =>
    simp only [memWrite] at h
    split at h
    · simpa using h
    · split at h
      · rcases List.mem_cons.1 h with h | h
        · exact .inl h
        · exact .inr (List.mem_cons_of_mem _ h)
      · rcases List.mem_cons.1 h with h | h
        · exact .inr (h ▸ List.mem_cons_self)
        · rcases ih h with h | h
          · exact .inl h
          · exact .inr (List.mem_cons_of_mem _ h)

/-- `MemWrite` keeps the canonical form. -/
theorem memWrite_wf {m : Memory} (i : Nat) (f : Frame) (h : Memory.wf m) : Memory.wf (memWrite m i f) := by
  induction m with
  | nil => simp [memWrite, Memory.wf]
  | cons x rest ih =>
    obtain ⟨hx, hr⟩ := List.pairwise_cons.1 h
    simp only [memWrite]
    split
    · rename_i hlt
      refine List.pairwise_cons.2 ⟨fun y hy => ?_, h⟩
      rcases List.mem_cons.1 hy with rfl | hy
      · exact hlt
      · exact Nat.lt_trans hlt (hx y hy)
    · split
      · rename_i heq
        subst heq
        exact List.pairwise_cons.2 ⟨hx, hr⟩
      · refine List.pairwise_cons.2 ⟨fun y hy => ?_, ih hr⟩
        rcases mem_memWrite hy with rfl | hy
        · exact Nat.lt_of_le_of_ne (Nat.le_of_not_lt ‹_›) (Ne.symm ‹_›)
        · exact hx y hy

theorem memRead_none_of_lt {m : Memory} {i : Nat} (h : ∀ e ∈ m, i < e.1) : memRead m i = none := by
  induction m with
  | nil => rfl
  | cons x rest ih =>
    have hx : i < x.1 := h x List.mem_cons_self
    simp [memRead, Nat.ne_of_lt hx, ih fun e he => h e (List.mem_cons_of_mem _ he)]

/-- Reading after a write: the written slot gives the Frame, every other slot what it gave before. -/
theorem memRead_memWrite {m : Memory} (i j : Nat) (f : Frame) (h : Memory.wf m) :
    memRead (memWrite m i f) j = if j = i then some f else memRead m j := by
  induction m with
  | nil => simp [memWrite, memRead]
  | cons x rest ih =>
    obtain ⟨hx, hr⟩ := List.pairwise_cons.1 h
    simp only [memWrite]
    split
    · simp [memRead]
    · split
      · rename_i heq
        subst heq
        by_cases hj : j = x.1 <;> simp [memRead, hj]
      · simp only [memRead, ih hr]
        by_cases hj : j = x.1
        · have hne : ¬ j = i := fun hji => ‹¬ i = x.1› (hji ▸ hj)
          simp [hj, show ¬ x.1 = i from fun h => hne (hj.trans h)]
        · simp [hj]

/-- What a slot reads as is one of the entries. -/
theorem mem_of_memRead {m : Memory} {i : Nat} {f : Frame} (h : memRead m i = some f) : (i, f) ∈ m := by
  induction m with
  | nil => simp [memRead] at h
  | cons x rest ih =>
    simp only [memRead] at h
    split at h
    · rename_i hx
      cases h
      subst hx
      exact List.mem_cons_self
    · exact List.mem_cons_of_mem _ (ih h)

/-! ### Queues -/

/-- A number written to a register fits it. -/
theorem fit_lt (w n : Nat) : fit w n < 2 ^ w := Nat.mod_lt _ (Nat.two_pow_pos w)

/-- A number that fits is written whole. -/
theorem fit_of_lt {w n : Nat} (h : n < 2 ^ w) : fit w n = n := Nat.mod_eq_of_lt h

/-- Everything `append` can do (R140). -/
theorem append_cases {q q' : Queue} {f : Frame} (h : q.append f = some q') :
    q.cnt ≠ q.cap ∧ q'.cap = q.cap ∧ q'.rd = q.rd ∧ q'.cnt = q.cnt + 1 ∧ q'.store = memWrite q.store q.tail f ∧
      q'.peak = max q.peak (q.cnt + 1) := by
  unfold Queue.append at h
  split at h
  · cases h
  · cases h
    exact ⟨‹_›, rfl, rfl, rfl, rfl, rfl⟩

theorem append_none {q : Queue} {f : Frame} : q.append f = none ↔ q.cnt = q.cap := by
  unfold Queue.append
  split <;> simp [*]

/-- Everything `remove` can do (R149). -/
theorem remove_cases {id : QueueId} {q q' : Queue} {f : Frame} (h : q.remove id = some (f, q')) :
    q.cnt ≠ 0 ∧ f = q.slot id q.rd ∧ q'.cap = q.cap ∧ q'.peak = q.peak ∧ q'.store = q.store ∧
      q'.cnt = q.cnt - 1 ∧ q'.rd = (q.rd + 1) % q.cap := by
  unfold Queue.remove at h
  split at h
  · cases h
  · cases h
    exact ⟨‹_›, rfl, rfl, rfl, rfl, rfl, rfl⟩

theorem remove_none {id : QueueId} {q : Queue} : q.remove id = none ↔ q.cnt = 0 := by
  unfold Queue.remove
  split <;> simp_all

theorem init_inv (n : Nat) : (Queue.init n).Inv where
  cnt_le_cap := Nat.zero_le _
  peak_le_cap := Nat.zero_le _
  cnt_le_peak := Nat.le_refl _
  rd_lt_cap h := Nat.pos_of_ne_zero h
  rd_zero _ := rfl
  store_wf := by simp [Queue.init]
  store_lt := by simp [Queue.init]
  written := by simp [Queue.init]

theorem init_fits (c : Config) (n : Nat) : (Queue.init (fit c.wIdx n)).Fits c where
  cap_lt := fit_lt _ _
  idx_lt := by simp [Queue.init]

theorem unallocated_inv : Queue.unallocated.Inv := init_inv 0

theorem unallocated_fits (c : Config) : Queue.unallocated.Fits c where
  cap_lt := Nat.two_pow_pos _
  idx_lt := by simp [Queue.unallocated]

/-- `append` keeps the queue invariants. -/
theorem append_inv {q q' : Queue} {f : Frame} (hq : q.Inv) (h : q.append f = some q') : q'.Inv := by
  obtain ⟨hne, hcap, hrd, hcnt, hst, hpk⟩ := append_cases h
  have hlt : q.cnt < q.cap := Nat.lt_of_le_of_ne hq.cnt_le_cap hne
  have hcap0 : q.cap ≠ 0 := by omega
  have hpl := hq.peak_le_cap
  refine ⟨by omega, by omega, by omega, fun _ => ?_, fun h0 => absurd (hcap ▸ h0) hcap0, ?_, ?_, ?_⟩
  · rw [hrd, hcap]; exact hq.rd_lt_cap hcap0
  · rw [hst]; exact memWrite_wf _ _ hq.store_wf
  · intro e he
    rw [hst] at he
    rw [hcap]
    rcases mem_memWrite he with rfl | he
    · exact Nat.mod_lt _ (by omega)
    · exact hq.store_lt e he
  · intro j hj
    rw [hcnt] at hj
    rw [hst, hrd, hcap, memRead_memWrite _ _ _ hq.store_wf]
    split
    · rfl
    · rename_i hne'
      refine hq.written j (Nat.lt_of_le_of_ne (by omega) fun hjc => hne' ?_)
      rw [hjc]; rfl

/-- `append` of a Frame whose index fits keeps the widths. -/
theorem append_fits {c : Config} {q q' : Queue} {f : Frame} (hq : q.Fits c) (hf : f.idx < 2 ^ c.wFmi)
    (h : q.append f = some q') : q'.Fits c := by
  obtain ⟨-, hcap, -, -, hst, -⟩ := append_cases h
  refine ⟨hcap ▸ hq.cap_lt, fun e he => ?_⟩
  rw [hst] at he
  rcases mem_memWrite he with rfl | he
  · exact hf
  · exact hq.idx_lt e he

/-- `remove` keeps the queue invariants. -/
theorem remove_inv {id : QueueId} {q q' : Queue} {f : Frame} (hq : q.Inv) (h : q.remove id = some (f, q')) :
    q'.Inv := by
  obtain ⟨hne, -, hcap, hpk, hst, hcnt, hrd⟩ := remove_cases h
  have hle := hq.cnt_le_cap
  have hcp := hq.cnt_le_peak
  have hpl := hq.peak_le_cap
  have hcap0 : q.cap ≠ 0 := by omega
  refine ⟨by omega, by omega, by omega, fun _ => ?_, fun h0 => absurd (hcap ▸ h0) hcap0, ?_, ?_, ?_⟩
  · rw [hrd, hcap]; exact Nat.mod_lt _ (by omega)
  · rw [hst]; exact hq.store_wf
  · rw [hst, hcap]; exact hq.store_lt
  · intro j hj
    have := hq.written (j + 1) (by omega)
    rw [hst, hcap, hrd, Nat.mod_add_mod]
    rwa [show q.rd + 1 + j = q.rd + (j + 1) by omega]

/-- `remove` keeps the widths, and what it yields fits. -/
theorem remove_fits {c : Config} {id : QueueId} {q q' : Queue} {f : Frame} (hi : q.Inv) (hq : q.Fits c)
    (h : q.remove id = some (f, q')) : q'.Fits c ∧ f.idx < 2 ^ c.wFmi := by
  obtain ⟨hne, hf, hcap, -, hst, -, -⟩ := remove_cases h
  refine ⟨⟨hcap ▸ hq.cap_lt, hst ▸ hq.idx_lt⟩, ?_⟩
  have hle := hi.cnt_le_cap
  have hw := hi.written 0 (Nat.pos_of_ne_zero hne)
  rw [Nat.add_zero, Nat.mod_eq_of_lt (hi.rd_lt_cap (by omega))] at hw
  obtain ⟨g, hg⟩ := Option.isSome_iff_exists.1 hw
  rw [hf, Queue.slot, hg]
  exact hq.idx_lt _ (mem_of_memRead hg)

theorem resetPeak_inv {q : Queue} (hq : q.Inv) : q.resetPeak.Inv where
  cnt_le_cap := hq.cnt_le_cap
  peak_le_cap := hq.cnt_le_cap
  cnt_le_peak := Nat.le_refl _
  rd_lt_cap := hq.rd_lt_cap
  rd_zero := hq.rd_zero
  store_wf := hq.store_wf
  store_lt := hq.store_lt
  written := hq.written

end Machine
end Sys2Proof
end

