-- ==== Sys2Proof/Laws/State.lean ====
section
/-!
SUPPORT. One lemma per field per named update of State, true by rfl (or by the cases of the selector), so that no later
proof unfolds a record update.
-/

namespace Sys2Proof
namespace Machine

/-! ### `finish` -/
@[simp] theorem finish_cfg (s : State) (ok fv : Bool) (r : BitVec 64) : (s.finish ok fv r).cfg = s.cfg := rfl
@[simp] theorem finish_a (s : State) (ok fv : Bool) (r : BitVec 64) : (s.finish ok fv r).a = s.a := rfl
@[simp] theorem finish_fop (s : State) (ok fv : Bool) (r : BitVec 64) : (s.finish ok fv r).fop = s.fop := rfl
@[simp] theorem finish_fres (s : State) (ok fv : Bool) (r : BitVec 64) : (s.finish ok fv r).fres = s.fres := rfl
@[simp] theorem finish_status (s : State) (ok fv : Bool) (r : BitVec 64) : (s.finish ok fv r).status = ⟨ok, false, false, fv⟩ := rfl
@[simp] theorem finish_res (s : State) (ok fv : Bool) (r : BitVec 64) : (s.finish ok fv r).res = r := rfl
@[simp] theorem finish_settings (s : State) (ok fv : Bool) (r : BitVec 64) : (s.finish ok fv r).settings = s.settings := rfl
@[simp] theorem finish_timing (s : State) (ok fv : Bool) (r : BitVec 64) : (s.finish ok fv r).timing = s.timing := rfl
@[simp] theorem finish_rxq0 (s : State) (ok fv : Bool) (r : BitVec 64) : (s.finish ok fv r).rxq0 = s.rxq0 := rfl
@[simp] theorem finish_rxq1 (s : State) (ok fv : Bool) (r : BitVec 64) : (s.finish ok fv r).rxq1 = s.rxq1 := rfl
@[simp] theorem finish_txq (s : State) (ok fv : Bool) (r : BitVec 64) : (s.finish ok fv r).txq = s.txq := rfl
@[simp] theorem finish_bank (s : State) (ok fv : Bool) (r : BitVec 64) : (s.finish ok fv r).bank = s.bank := rfl
@[simp] theorem finish_cb0 (s : State) (ok fv : Bool) (r : BitVec 64) : (s.finish ok fv r).cb0 = s.cb0 := rfl
@[simp] theorem finish_cb1 (s : State) (ok fv : Bool) (r : BitVec 64) : (s.finish ok fv r).cb1 = s.cb1 := rfl
@[simp] theorem finish_dcb0 (s : State) (ok fv : Bool) (r : BitVec 64) : (s.finish ok fv r).dcb0 = s.dcb0 := rfl
@[simp] theorem finish_dcb1 (s : State) (ok fv : Bool) (r : BitVec 64) : (s.finish ok fv r).dcb1 = s.dcb1 := rfl
@[simp] theorem finish_dState (s : State) (ok fv : Bool) (r : BitVec 64) : (s.finish ok fv r).dState = s.dState := rfl
@[simp] theorem finish_seq (s : State) (ok fv : Bool) (r : BitVec 64) : (s.finish ok fv r).seq = s.seq := rfl
@[simp] theorem finish_irqEn (s : State) (ok fv : Bool) (r : BitVec 64) : (s.finish ok fv r).irqEn = s.irqEn := rfl
@[simp] theorem finish_op (s : State) (ok fv : Bool) (r : BitVec 64) : (s.finish ok fv r).op = s.op := rfl
@[simp] theorem finish_env (s : State) (ok fv : Bool) (r : BitVec 64) : (s.finish ok fv r).env = s.env := rfl
@[simp] theorem finish_events (s : State) (ok fv : Bool) (r : BitVec 64) : (s.finish ok fv r).events = s.events := rfl
@[simp] theorem finish_reads (s : State) (ok fv : Bool) (r : BitVec 64) : (s.finish ok fv r).reads = s.reads := rfl
@[simp] theorem finish_host (s : State) (ok fv : Bool) (r : BitVec 64) : (s.finish ok fv r).host = s.host := rfl
@[simp] theorem finish_turns (s : State) (ok fv : Bool) (r : BitVec 64) : (s.finish ok fv r).turns = s.turns := rfl

/-! ### `refuse` and `illegal` -/
@[simp] theorem refuse_cfg (s : State) (w : RefusedBecause) : (s.refuse w).cfg = s.cfg := rfl
@[simp] theorem refuse_a (s : State) (w : RefusedBecause) : (s.refuse w).a = s.a := rfl
@[simp] theorem refuse_fop (s : State) (w : RefusedBecause) : (s.refuse w).fop = s.fop := rfl
@[simp] theorem refuse_fres (s : State) (w : RefusedBecause) : (s.refuse w).fres = s.fres := rfl
@[simp] theorem refuse_status (s : State) (w : RefusedBecause) : (s.refuse w).status = ⟨false, true, false, false⟩ := rfl
@[simp] theorem refuse_res (s : State) (w : RefusedBecause) : (s.refuse w).res = s.res := rfl
@[simp] theorem refuse_settings (s : State) (w : RefusedBecause) : (s.refuse w).settings = s.settings := rfl
@[simp] theorem refuse_timing (s : State) (w : RefusedBecause) : (s.refuse w).timing = s.timing := rfl
@[simp] theorem refuse_rxq0 (s : State) (w : RefusedBecause) : (s.refuse w).rxq0 = s.rxq0 := rfl
@[simp] theorem refuse_rxq1 (s : State) (w : RefusedBecause) : (s.refuse w).rxq1 = s.rxq1 := rfl
@[simp] theorem refuse_txq (s : State) (w : RefusedBecause) : (s.refuse w).txq = s.txq := rfl
@[simp] theorem refuse_bank (s : State) (w : RefusedBecause) : (s.refuse w).bank = s.bank := rfl
@[simp] theorem refuse_cb0 (s : State) (w : RefusedBecause) : (s.refuse w).cb0 = s.cb0 := rfl
@[simp] theorem refuse_cb1 (s : State) (w : RefusedBecause) : (s.refuse w).cb1 = s.cb1 := rfl
@[simp] theorem refuse_dcb0 (s : State) (w : RefusedBecause) : (s.refuse w).dcb0 = s.dcb0 := rfl
@[simp] theorem refuse_dcb1 (s : State) (w : RefusedBecause) : (s.refuse w).dcb1 = s.dcb1 := rfl
@[simp] theorem refuse_dState (s : State) (w : RefusedBecause) : (s.refuse w).dState = s.dState := rfl
@[simp] theorem refuse_seq (s : State) (w : RefusedBecause) : (s.refuse w).seq = s.seq := rfl
@[simp] theorem refuse_irqEn (s : State) (w : RefusedBecause) : (s.refuse w).irqEn = s.irqEn := rfl
@[simp] theorem refuse_op (s : State) (w : RefusedBecause) : (s.refuse w).op = s.op := rfl
@[simp] theorem refuse_env (s : State) (w : RefusedBecause) : (s.refuse w).env = s.env := rfl
@[simp] theorem refuse_events (s : State) (w : RefusedBecause) : (s.refuse w).events = s.events := rfl
@[simp] theorem refuse_reads (s : State) (w : RefusedBecause) : (s.refuse w).reads = s.reads := rfl
@[simp] theorem refuse_host (s : State) (w : RefusedBecause) : (s.refuse w).host = s.host := rfl
@[simp] theorem refuse_turns (s : State) (w : RefusedBecause) : (s.refuse w).turns = s.turns := rfl
@[simp] theorem illegal_cfg (s : State) : (s.illegal).cfg = s.cfg := rfl
@[simp] theorem illegal_a (s : State) : (s.illegal).a = s.a := rfl
@[simp] theorem illegal_fop (s : State) : (s.illegal).fop = s.fop := rfl
@[simp] theorem illegal_fres (s : State) : (s.illegal).fres = s.fres := rfl
@[simp] theorem illegal_status (s : State) : (s.illegal).status = ⟨false, false, true, false⟩ := rfl
@[simp] theorem illegal_res (s : State) : (s.illegal).res = s.res := rfl
@[simp] theorem illegal_settings (s : State) : (s.illegal).settings = s.settings := rfl
@[simp] theorem illegal_timing (s : State) : (s.illegal).timing = s.timing := rfl
@[simp] theorem illegal_rxq0 (s : State) : (s.illegal).rxq0 = s.rxq0 := rfl
@[simp] theorem illegal_rxq1 (s : State) : (s.illegal).rxq1 = s.rxq1 := rfl
@[simp] theorem illegal_txq (s : State) : (s.illegal).txq = s.txq := rfl
@[simp] theorem illegal_bank (s : State) : (s.illegal).bank = s.bank := rfl
@[simp] theorem illegal_cb0 (s : State) : (s.illegal).cb0 = s.cb0 := rfl
@[simp] theorem illegal_cb1 (s : State) : (s.illegal).cb1 = s.cb1 := rfl
@[simp] theorem illegal_dcb0 (s : State) : (s.illegal).dcb0 = s.dcb0 := rfl
@[simp] theorem illegal_dcb1 (s : State) : (s.illegal).dcb1 = s.dcb1 := rfl
@[simp] theorem illegal_dState (s : State) : (s.illegal).dState = s.dState := rfl
@[simp] theorem illegal_seq (s : State) : (s.illegal).seq = s.seq := rfl
@[simp] theorem illegal_irqEn (s : State) : (s.illegal).irqEn = s.irqEn := rfl
@[simp] theorem illegal_op (s : State) : (s.illegal).op = s.op := rfl
@[simp] theorem illegal_env (s : State) : (s.illegal).env = s.env := rfl
@[simp] theorem illegal_events (s : State) : (s.illegal).events = s.events := rfl
@[simp] theorem illegal_reads (s : State) : (s.illegal).reads = s.reads := rfl
@[simp] theorem illegal_host (s : State) : (s.illegal).host = s.host := rfl
@[simp] theorem illegal_turns (s : State) : (s.illegal).turns = s.turns := rfl

/-! ### `emit` -/
@[simp] theorem emit_cfg (s : State) (e : Event) : (s.emit e).cfg = s.cfg := rfl
@[simp] theorem emit_a (s : State) (e : Event) : (s.emit e).a = s.a := rfl
@[simp] theorem emit_fop (s : State) (e : Event) : (s.emit e).fop = s.fop := rfl
@[simp] theorem emit_fres (s : State) (e : Event) : (s.emit e).fres = s.fres := rfl
@[simp] theorem emit_status (s : State) (e : Event) : (s.emit e).status = s.status := rfl
@[simp] theorem emit_res (s : State) (e : Event) : (s.emit e).res = s.res := rfl
@[simp] theorem emit_settings (s : State) (e : Event) : (s.emit e).settings = s.settings := rfl
@[simp] theorem emit_timing (s : State) (e : Event) : (s.emit e).timing = s.timing := rfl
@[simp] theorem emit_rxq0 (s : State) (e : Event) : (s.emit e).rxq0 = s.rxq0 := rfl
@[simp] theorem emit_rxq1 (s : State) (e : Event) : (s.emit e).rxq1 = s.rxq1 := rfl
@[simp] theorem emit_txq (s : State) (e : Event) : (s.emit e).txq = s.txq := rfl
@[simp] theorem emit_bank (s : State) (e : Event) : (s.emit e).bank = s.bank := rfl
@[simp] theorem emit_cb0 (s : State) (e : Event) : (s.emit e).cb0 = s.cb0 := rfl
@[simp] theorem emit_cb1 (s : State) (e : Event) : (s.emit e).cb1 = s.cb1 := rfl
@[simp] theorem emit_dcb0 (s : State) (e : Event) : (s.emit e).dcb0 = s.dcb0 := rfl
@[simp] theorem emit_dcb1 (s : State) (e : Event) : (s.emit e).dcb1 = s.dcb1 := rfl
@[simp] theorem emit_dState (s : State) (e : Event) : (s.emit e).dState = s.dState := rfl
@[simp] theorem emit_seq (s : State) (e : Event) : (s.emit e).seq = s.seq := rfl
@[simp] theorem emit_irqEn (s : State) (e : Event) : (s.emit e).irqEn = s.irqEn := rfl
@[simp] theorem emit_op (s : State) (e : Event) : (s.emit e).op = s.op := rfl
@[simp] theorem emit_env (s : State) (e : Event) : (s.emit e).env = s.env.answer e := rfl
@[simp] theorem emit_events (s : State) (e : Event) : (s.emit e).events = s.events ++ [e] := rfl
@[simp] theorem emit_reads (s : State) (e : Event) : (s.emit e).reads = s.reads := rfl
@[simp] theorem emit_host (s : State) (e : Event) : (s.emit e).host = s.host := rfl
@[simp] theorem emit_turns (s : State) (e : Event) : (s.emit e).turns = s.turns := rfl

/-! ### `emitAll` -/
@[simp] theorem emitAll_nil (s : State) : s.emitAll [] = s := rfl
theorem emitAll_cons (s : State) (e : Event) (es : List Event) : s.emitAll (e :: es) = (s.emit e).emitAll es := rfl

@[simp] theorem emitAll_events (s : State) (es : List Event) : (s.emitAll es).events = s.events ++ es := by
  induction es generalizing s with
  | nil => simp
  | cons e es ih => rw [emitAll_cons, ih]; simp

@[simp] theorem emitAll_env (s : State) (es : List Event) : (s.emitAll es).env = es.foldl Env.answer s.env := by
  induction es generalizing s with
  | nil => rfl
  | cons e es ih => rw [emitAll_cons, ih]; rfl

@[simp] theorem emitAll_cfg (s : State) (es : List Event) : (s.emitAll es).cfg = s.cfg := by
  induction es generalizing s with
  | nil => rfl
  | cons e es ih => rw [emitAll_cons, ih]; rfl
@[simp] theorem emitAll_a (s : State) (es : List Event) : (s.emitAll es).a = s.a := by
  induction es generalizing s with
  | nil => rfl
  | cons e es ih => rw [emitAll_cons, ih]; rfl
@[simp] theorem emitAll_fop (s : State) (es : List Event) : (s.emitAll es).fop = s.fop := by
  induction es generalizing s with
  | nil => rfl
  | cons e es ih => rw [emitAll_cons, ih]; rfl
@[simp] theorem emitAll_fres (s : State) (es : List Event) : (s.emitAll es).fres = s.fres := by
  induction es generalizing s with
  | nil => rfl
  | cons e es ih => rw [emitAll_cons, ih]; rfl
@[simp] theorem emitAll_status (s : State) (es : List Event) : (s.emitAll es).status = s.status := by
  induction es generalizing s with
  | nil => rfl
  | cons e es ih => rw [emitAll_cons, ih]; rfl
@[simp] theorem emitAll_res (s : State) (es : List Event) : (s.emitAll es).res = s.res := by
  induction es generalizing s with
  | nil => rfl
  | cons e es ih => rw [emitAll_cons, ih]; rfl
@[simp] theorem emitAll_settings (s : State) (es : List Event) : (s.emitAll es).settings = s.settings := by
  induction es generalizing s with
  | nil => rfl
  | cons e es ih => rw [emitAll_cons, ih]; rfl
@[simp] theorem emitAll_timing (s : State) (es : List Event) : (s.emitAll es).timing = s.timing := by
  induction es generalizing s with
  | nil => rfl
  | cons e es ih => rw [emitAll_cons, ih]; rfl
@[simp] theorem emitAll_rxq0 (s : State) (es : List Event) : (s.emitAll es).rxq0 = s.rxq0 := by
  induction es generalizing s with
  | nil => rfl
  | cons e es ih => rw [emitAll_cons, ih]; rfl
@[simp] theorem emitAll_rxq1 (s : State) (es : List Event) : (s.emitAll es).rxq1 = s.rxq1 := by
  induction es generalizing s with
  | nil => rfl
  | cons e es ih => rw [emitAll_cons, ih]; rfl
@[simp] theorem emitAll_txq (s : State) (es : List Event) : (s.emitAll es).txq = s.txq := by
  induction es generalizing s with
  | nil => rfl
  | cons e es ih => rw [emitAll_cons, ih]; rfl
@[simp] theorem emitAll_bank (s : State) (es : List Event) : (s.emitAll es).bank = s.bank := by
  induction es generalizing s with
  | nil => rfl
  | cons e es ih => rw [emitAll_cons, ih]; rfl
@[simp] theorem emitAll_cb0 (s : State) (es : List Event) : (s.emitAll es).cb0 = s.cb0 := by
  induction es generalizing s with
  | nil => rfl
  | cons e es ih => rw [emitAll_cons, ih]; rfl
@[simp] theorem emitAll_cb1 (s : State) (es : List Event) : (s.emitAll es).cb1 = s.cb1 := by
  induction es generalizing s with
  | nil => rfl
  | cons e es ih => rw [emitAll_cons, ih]; rfl
@[simp] theorem emitAll_dcb0 (s : State) (es : List Event) : (s.emitAll es).dcb0 = s.dcb0 := by
  induction es generalizing s with
  | nil => rfl
  | cons e es ih => rw [emitAll_cons, ih]; rfl
@[simp] theorem emitAll_dcb1 (s : State) (es : List Event) : (s.emitAll es).dcb1 = s.dcb1 := by
  induction es generalizing s with
  | nil => rfl
  | cons e es ih => rw [emitAll_cons, ih]; rfl
@[simp] theorem emitAll_dState (s : State) (es : List Event) : (s.emitAll es).dState = s.dState := by
  induction es generalizing s with
  | nil => rfl
  | cons e es ih => rw [emitAll_cons, ih]; rfl
@[simp] theorem emitAll_seq (s : State) (es : List Event) : (s.emitAll es).seq = s.seq := by
  induction es generalizing s with
  | nil => rfl
  | cons e es ih => rw [emitAll_cons, ih]; rfl
@[simp] theorem emitAll_irqEn (s : State) (es : List Event) : (s.emitAll es).irqEn = s.irqEn := by
  induction es generalizing s with
  | nil => rfl
  | cons e es ih => rw [emitAll_cons, ih]; rfl
@[simp] theorem emitAll_op (s : State) (es : List Event) : (s.emitAll es).op = s.op := by
  induction es generalizing s with
  | nil => rfl
  | cons e es ih => rw [emitAll_cons, ih]; rfl
@[simp] theorem emitAll_reads (s : State) (es : List Event) : (s.emitAll es).reads = s.reads := by
  induction es generalizing s with
  | nil => rfl
  | cons e es ih => rw [emitAll_cons, ih]; rfl
@[simp] theorem emitAll_host (s : State) (es : List Event) : (s.emitAll es).host = s.host := by
  induction es generalizing s with
  | nil => rfl
  | cons e es ih => rw [emitAll_cons, ih]; rfl
@[simp] theorem emitAll_turns (s : State) (es : List Event) : (s.emitAll es).turns = s.turns := by
  induction es generalizing s with
  | nil => rfl
  | cons e es ih => rw [emitAll_cons, ih]; rfl

/-! ### `setQueue` -/
@[simp] theorem setQueue_cfg (s : State) (id : QueueId) (q : Queue) : (s.setQueue id q).cfg = s.cfg := by cases id <;> rfl
@[simp] theorem setQueue_a (s : State) (id : QueueId) (q : Queue) : (s.setQueue id q).a = s.a := by cases id <;> rfl
@[simp] theorem setQueue_fop (s : State) (id : QueueId) (q : Queue) : (s.setQueue id q).fop = s.fop := by cases id <;> rfl
@[simp] theorem setQueue_fres (s : State) (id : QueueId) (q : Queue) : (s.setQueue id q).fres = s.fres := by cases id <;> rfl
@[simp] theorem setQueue_status (s : State) (id : QueueId) (q : Queue) : (s.setQueue id q).status = s.status := by cases id <;> rfl
@[simp] theorem setQueue_res (s : State) (id : QueueId) (q : Queue) : (s.setQueue id q).res = s.res := by cases id <;> rfl
@[simp] theorem setQueue_settings (s : State) (id : QueueId) (q : Queue) : (s.setQueue id q).settings = s.settings := by cases id <;> rfl
@[simp] theorem setQueue_timing (s : State) (id : QueueId) (q : Queue) : (s.setQueue id q).timing = s.timing := by cases id <;> rfl
@[simp] theorem setQueue_bank (s : State) (id : QueueId) (q : Queue) : (s.setQueue id q).bank = s.bank := by cases id <;> rfl
@[simp] theorem setQueue_cb0 (s : State) (id : QueueId) (q : Queue) : (s.setQueue id q).cb0 = s.cb0 := by cases id <;> rfl
@[simp] theorem setQueue_cb1 (s : State) (id : QueueId) (q : Queue) : (s.setQueue id q).cb1 = s.cb1 := by cases id <;> rfl
@[simp] theorem setQueue_dcb0 (s : State) (id : QueueId) (q : Queue) : (s.setQueue id q).dcb0 = s.dcb0 := by cases id <;> rfl
@[simp] theorem setQueue_dcb1 (s : State) (id : QueueId) (q : Queue) : (s.setQueue id q).dcb1 = s.dcb1 := by cases id <;> rfl
@[simp] theorem setQueue_dState (s : State) (id : QueueId) (q : Queue) : (s.setQueue id q).dState = s.dState := by cases id <;> rfl
@[simp] theorem setQueue_seq (s : State) (id : QueueId) (q : Queue) : (s.setQueue id q).seq = s.seq := by cases id <;> rfl
@[simp] theorem setQueue_irqEn (s : State) (id : QueueId) (q : Queue) : (s.setQueue id q).irqEn = s.irqEn := by cases id <;> rfl
@[simp] theorem setQueue_op (s : State) (id : QueueId) (q : Queue) : (s.setQueue id q).op = s.op := by cases id <;> rfl
@[simp] theorem setQueue_env (s : State) (id : QueueId) (q : Queue) : (s.setQueue id q).env = s.env := by cases id <;> rfl
@[simp] theorem setQueue_events (s : State) (id : QueueId) (q : Queue) : (s.setQueue id q).events = s.events := by cases id <;> rfl
@[simp] theorem setQueue_reads (s : State) (id : QueueId) (q : Queue) : (s.setQueue id q).reads = s.reads := by cases id <;> rfl
@[simp] theorem setQueue_host (s : State) (id : QueueId) (q : Queue) : (s.setQueue id q).host = s.host := by cases id <;> rfl
@[simp] theorem setQueue_turns (s : State) (id : QueueId) (q : Queue) : (s.setQueue id q).turns = s.turns := by cases id <;> rfl

@[simp] theorem setQueue_queue (s : State) (id id' : QueueId) (q : Queue) :
    (s.setQueue id q).queue id' = if id' = id then q else s.queue id' := by
  cases id <;> cases id' <;> rfl

@[simp] theorem setQueue_txq_txq (s : State) (q : Queue) : (s.setQueue .txq q).txq = q := rfl
@[simp] theorem setQueue_rxQueueOf_txq (s : State) (k : FifoId) (q : Queue) : (s.setQueue (rxQueueOf k) q).txq = s.txq := by
  cases k <;> rfl

/-- A queue set to what it holds is no change. -/
theorem setQueue_self (s : State) (id : QueueId) : s.setQueue id (s.queue id) = s := by cases id <;> rfl

/-! ### `setCb` -/
@[simp] theorem setCb_cfg (s : State) (k : FifoId) (c : CallbackArray) : (s.setCb k c).cfg = s.cfg := by cases k <;> rfl
@[simp] theorem setCb_a (s : State) (k : FifoId) (c : CallbackArray) : (s.setCb k c).a = s.a := by cases k <;> rfl
@[simp] theorem setCb_fop (s : State) (k : FifoId) (c : CallbackArray) : (s.setCb k c).fop = s.fop := by cases k <;> rfl
@[simp] theorem setCb_fres (s : State) (k : FifoId) (c : CallbackArray) : (s.setCb k c).fres = s.fres := by cases k <;> rfl
@[simp] theorem setCb_status (s : State) (k : FifoId) (c : CallbackArray) : (s.setCb k c).status = s.status := by cases k <;> rfl
@[simp] theorem setCb_res (s : State) (k : FifoId) (c : CallbackArray) : (s.setCb k c).res = s.res := by cases k <;> rfl
@[simp] theorem setCb_settings (s : State) (k : FifoId) (c : CallbackArray) : (s.setCb k c).settings = s.settings := by cases k <;> rfl
@[simp] theorem setCb_timing (s : State) (k : FifoId) (c : CallbackArray) : (s.setCb k c).timing = s.timing := by cases k <;> rfl
@[simp] theorem setCb_rxq0 (s : State) (k : FifoId) (c : CallbackArray) : (s.setCb k c).rxq0 = s.rxq0 := by cases k <;> rfl
@[simp] theorem setCb_rxq1 (s : State) (k : FifoId) (c : CallbackArray) : (s.setCb k c).rxq1 = s.rxq1 := by cases k <;> rfl
@[simp] theorem setCb_txq (s : State) (k : FifoId) (c : CallbackArray) : (s.setCb k c).txq = s.txq := by cases k <;> rfl
@[simp] theorem setCb_bank (s : State) (k : FifoId) (c : CallbackArray) : (s.setCb k c).bank = s.bank := by cases k <;> rfl
@[simp] theorem setCb_dcb0 (s : State) (k : FifoId) (c : CallbackArray) : (s.setCb k c).dcb0 = s.dcb0 := by cases k <;> rfl
@[simp] theorem setCb_dcb1 (s : State) (k : FifoId) (c : CallbackArray) : (s.setCb k c).dcb1 = s.dcb1 := by cases k <;> rfl
@[simp] theorem setCb_dState (s : State) (k : FifoId) (c : CallbackArray) : (s.setCb k c).dState = s.dState := by cases k <;> rfl
@[simp] theorem setCb_seq (s : State) (k : FifoId) (c : CallbackArray) : (s.setCb k c).seq = s.seq := by cases k <;> rfl
@[simp] theorem setCb_irqEn (s : State) (k : FifoId) (c : CallbackArray) : (s.setCb k c).irqEn = s.irqEn := by cases k <;> rfl
@[simp] theorem setCb_op (s : State) (k : FifoId) (c : CallbackArray) : (s.setCb k c).op = s.op := by cases k <;> rfl
@[simp] theorem setCb_env (s : State) (k : FifoId) (c : CallbackArray) : (s.setCb k c).env = s.env := by cases k <;> rfl
@[simp] theorem setCb_events (s : State) (k : FifoId) (c : CallbackArray) : (s.setCb k c).events = s.events := by cases k <;> rfl
@[simp] theorem setCb_reads (s : State) (k : FifoId) (c : CallbackArray) : (s.setCb k c).reads = s.reads := by cases k <;> rfl
@[simp] theorem setCb_host (s : State) (k : FifoId) (c : CallbackArray) : (s.setCb k c).host = s.host := by cases k <;> rfl
@[simp] theorem setCb_turns (s : State) (k : FifoId) (c : CallbackArray) : (s.setCb k c).turns = s.turns := by cases k <;> rfl

@[simp] theorem setCb_cb (s : State) (k k' : FifoId) (c : CallbackArray) :
    (s.setCb k c).cb k' = if k' = k then c else s.cb k' := by
  cases k <;> cases k' <;> rfl

/-! ### Accessors after an update that does not touch them -/
@[simp] theorem finish_queue (s : State) (ok fv : Bool) (r : BitVec 64) (id : QueueId) : (s.finish ok fv r).queue id = s.queue id := rfl
@[simp] theorem finish_cb (s : State) (ok fv : Bool) (r : BitVec 64) (k : FifoId) : (s.finish ok fv r).cb k = s.cb k := rfl
@[simp] theorem finish_dcb (s : State) (ok fv : Bool) (r : BitVec 64) (k : FifoId) : (s.finish ok fv r).dcb k = s.dcb k := rfl
@[simp] theorem refuse_queue (s : State) (w : RefusedBecause) (id : QueueId) : (s.refuse w).queue id = s.queue id := rfl
@[simp] theorem refuse_cb (s : State) (w : RefusedBecause) (k : FifoId) : (s.refuse w).cb k = s.cb k := rfl
@[simp] theorem refuse_dcb (s : State) (w : RefusedBecause) (k : FifoId) : (s.refuse w).dcb k = s.dcb k := rfl
@[simp] theorem illegal_queue (s : State) (id : QueueId) : (s.illegal).queue id = s.queue id := rfl
@[simp] theorem illegal_cb (s : State) (k : FifoId) : (s.illegal).cb k = s.cb k := rfl
@[simp] theorem illegal_dcb (s : State) (k : FifoId) : (s.illegal).dcb k = s.dcb k := rfl
@[simp] theorem emit_queue (s : State) (e : Event) (id : QueueId) : (s.emit e).queue id = s.queue id := rfl
@[simp] theorem emit_cb (s : State) (e : Event) (k : FifoId) : (s.emit e).cb k = s.cb k := rfl
@[simp] theorem emit_dcb (s : State) (e : Event) (k : FifoId) : (s.emit e).dcb k = s.dcb k := rfl
@[simp] theorem emitAll_queue (s : State) (es : List Event) (id : QueueId) : (s.emitAll es).queue id = s.queue id := by
  cases id <;> simp [State.queue]
@[simp] theorem emitAll_cb (s : State) (es : List Event) (k : FifoId) : (s.emitAll es).cb k = s.cb k := by
  cases k <;> simp [State.cb]
@[simp] theorem emitAll_dcb (s : State) (es : List Event) (k : FifoId) : (s.emitAll es).dcb k = s.dcb k := by
  cases k <;> simp [State.dcb]
@[simp] theorem setQueue_cb (s : State) (id : QueueId) (q : Queue) (k : FifoId) : (s.setQueue id q).cb k = s.cb k := by
  cases k <;> simp [State.cb]
@[simp] theorem setQueue_dcb (s : State) (id : QueueId) (q : Queue) (k : FifoId) : (s.setQueue id q).dcb k = s.dcb k := by
  cases k <;> simp [State.dcb]
@[simp] theorem setCb_queue (s : State) (k : FifoId) (c : CallbackArray) (id : QueueId) : (s.setCb k c).queue id = s.queue id := by
  cases id <;> simp [State.queue]
@[simp] theorem setCb_dcb (s : State) (k k' : FifoId) (c : CallbackArray) : (s.setCb k c).dcb k' = s.dcb k' := by
  cases k' <;> simp [State.dcb]

/-! ### The sampled inputs -/
@[simp] theorem Env.setTme_tme (e : Env) (m m' : Mailbox) (b : Bool) :
    (e.setTme m b).tme m' = if m' = m then b else e.tme m' := by
  cases m <;> cases m' <;> rfl

@[simp] theorem Env.setRx_rx (e : Env) (k k' : FifoId) (r : RxInputs) :
    (e.setRx k r).rx k' = if k' = k then r else e.rx k' := by
  cases k <;> cases k' <;> rfl

@[simp] theorem Env.setRx_tme (e : Env) (k : FifoId) (r : RxInputs) (m : Mailbox) : (e.setRx k r).tme m = e.tme m := by
  cases k <;> cases m <;> rfl

@[simp] theorem Env.setRx_txc (e : Env) (k : FifoId) (r : RxInputs) : (e.setRx k r).txc = e.txc := by cases k <;> rfl

@[simp] theorem Env.setTme_txc (e : Env) (m : Mailbox) (b : Bool) : (e.setTme m b).txc = e.txc := by cases m <;> rfl

/-! ### Selectors at a constructor -/
@[simp] theorem State.queue_rxq0 (s : State) : s.queue .rxq0 = s.rxq0 := rfl
@[simp] theorem State.queue_rxq1 (s : State) : s.queue .rxq1 = s.rxq1 := rfl
@[simp] theorem State.queue_txq (s : State) : s.queue .txq = s.txq := rfl
@[simp] theorem rxQueueOf_fifo0 : rxQueueOf .fifo0 = .rxq0 := rfl
@[simp] theorem State.cb_fifo0 (s : State) : s.cb .fifo0 = s.cb0 := rfl
@[simp] theorem State.dcb_fifo0 (s : State) : s.dcb .fifo0 = s.dcb0 := rfl
@[simp] theorem Env.rx_fifo0 (e : Env) : e.rx .fifo0 = e.fifo0 := rfl
@[simp] theorem rxQueueOf_fifo1 : rxQueueOf .fifo1 = .rxq1 := rfl
@[simp] theorem State.cb_fifo1 (s : State) : s.cb .fifo1 = s.cb1 := rfl
@[simp] theorem State.dcb_fifo1 (s : State) : s.dcb .fifo1 = s.dcb1 := rfl
@[simp] theorem Env.rx_fifo1 (e : Env) : e.rx .fifo1 = e.fifo1 := rfl
@[simp] theorem Env.tme_mb0 (e : Env) : e.tme .mb0 = e.tme0 := rfl
@[simp] theorem Env.tme_mb1 (e : Env) : e.tme .mb1 = e.tme1 := rfl
@[simp] theorem Env.tme_mb2 (e : Env) : e.tme .mb2 = e.tme2 := rfl

end Machine
end Sys2Proof
end

