-- ==== Sys2Proof/Laws/Invariant.lean ====
section
/-!
SUPPORT. What each shared operation does to the invariant of Safety.lean: one lemma per operation, for the provers to cite.
-/

namespace Sys2Proof
namespace Machine

/-- Two states agree on everything `State.Inv` reads. -/
def Same (s t : State) : Prop :=
  t.cfg = s.cfg ∧ (∀ q, t.queue q = s.queue q) ∧ t.bank = s.bank ∧ (∀ k, t.cb k = s.cb k) ∧ (∀ k, t.dcb k = s.dcb k) ∧
  t.settings.rx0sz = s.settings.rx0sz ∧ t.settings.rx1sz = s.settings.rx1sz ∧ t.settings.txsz = s.settings.txsz ∧
  t.seq = s.seq ∧ t.dState = s.dState ∧ t.irqEn = s.irqEn ∧ t.op = s.op

/-- The invariant passes to any state that agrees on what it reads. -/
theorem Same.inv {s t : State} (h : Same s t) (i : s.Inv) : t.Inv := by
  obtain ⟨h1, h2, h3, h4, h5, h6, h7, h8, h9, h10, h11, h12⟩ := h
  constructor
  · rw [h1]; exact i.cfg_wf
  · intro q; rw [h2]; exact i.queues q
  · intro q; rw [h2, h1]; exact i.queue_fits q
  · rw [h3]; exact i.bank
  · intro k; rw [h4, h3]; exact i.cb_len k
  · intro k; rw [h4, h1]; exact i.cb k
  · intro k; rw [h5, h1]; exact i.dcb k
  · rw [h6, h7, h8, h1]; exact i.sizes
  · rw [h9, h10]; exact i.seq_init
  · rw [h11, h10]; exact i.gate
  · rw [h12, h10]; exact i.op_running
  · rw [h12]; exact i.op_mailbox
  · rw [h12, h1]; exact i.op_atomic
  · rw [h12, h1]; exact i.op_fits
  · rw [h10, show t.txq = s.txq from h2 .txq]; exact i.tx_empty

theorem Same.refl (s : State) : Same s s := by simp [Same]
theorem same_finish (s ok fv r) : Same s (s.finish ok fv r) := by simp [Same]
theorem same_refuse (s w) : Same s (s.refuse w) := by simp [Same]
theorem same_illegal (s) : Same s (s.illegal) := by simp [Same]
theorem same_emit (s e) : Same s (s.emit e) := by simp [Same]
theorem same_emitAll (s e) : Same s (s.emitAll e) := by simp [Same]

/-- Replacing a queue by one that meets its invariant (and is empty if it is TXQ during BEGIN). -/
theorem setQueue_inv' {s : State} {id q} (i : s.Inv) (hq : q.Inv) (hf : q.Fits s.cfg)
    (ht : id = .txq → s.dState = .initializing → q.cnt = 0) :
    (s.setQueue id q).Inv := by
  constructor
  · simpa using i.cfg_wf
  · intro q'; simp only [setQueue_queue]; split; exact hq; exact i.queues q'
  · intro q'; simp only [setQueue_queue, setQueue_cfg]; split; exact hf; exact i.queue_fits q'
  · simpa using i.bank
  · intro k; simpa using i.cb_len k
  · intro k; simpa using i.cb k
  · intro k; simpa using i.dcb k
  · simpa using i.sizes
  · simpa using i.seq_init
  · simpa using i.gate
  · simpa using i.op_running
  · simpa using i.op_mailbox
  · simpa using i.op_atomic
  · simpa using i.op_fits
  · intro h
    have h' : s.dState = .initializing := by simpa using h
    cases id
    · exact i.tx_empty h'
    · exact i.tx_empty h'
    · exact ht rfl h'

theorem finish_inv {s : State} {ok fv r} (i : s.Inv) : (s.finish ok fv r).Inv := (same_finish ..).inv i
theorem refuse_inv {s : State} {w} (i : s.Inv) : (s.refuse w).Inv := (same_refuse ..).inv i
theorem emit_inv {s : State} {e} (i : s.Inv) : (s.emit e).Inv := (same_emit ..).inv i
theorem emitAll_inv {s : State} {e} (i : s.Inv) : (s.emitAll e).Inv := (same_emitAll ..).inv i

theorem free_not_init {s : State} (h : (!s.queuesFree) = false) : s.dState ≠ .initializing := by
  intro h'; simp [State.queuesFree, h'] at h

theorem removeToFres_inv {s : State} {q} (i : s.Inv) (hn : s.dState ≠ .initializing) : (removeToFres q s).Inv := by
  unfold removeToFres
  split
  · exact finish_inv i
  · rename_i f q' h
    refine finish_inv ?_
    have := setQueue_inv' (id := q) i (remove_inv (i.queues q) h)
      (remove_fits (i.queues q) (i.queue_fits q) h).1 (fun _ h => absurd h hn)
    exact Same.inv (s := s.setQueue q q') (by simp [Same, State.queue, State.cb, State.dcb]) this

/-! ### The filter bank -/

/-- A bitmap write changes its own bit alone (20_memory.md R75). -/
theorem setBit_get (v : BitVec 14) (i j : Nat) (b : Bool) (hi : i < 14) :
    (setBit v i b).getLsbD j = if j = i then b else v.getLsbD j := by
  have e1 : ∀ j, ((1#14) <<< i).getLsbD j = decide (j = i) := by
    intro j
    rw [BitVec.getLsbD_shiftLeft]
    by_cases h : j < 14
    · by_cases h2 : j < i
      · simp [h, h2]; omega
      · simp [h, h2]
        have : (decide (j - i < 14)) = true ∨ True := Or.inr trivial
        by_cases h3 : j = i
        · subst h3; simp
        · simp [h3]; omega
    · have : j ≠ i := by omega
      simp [h, this]
  unfold setBit
  cases b
  · simp only [Bool.false_eq_true, if_false, BitVec.getLsbD_and, BitVec.getLsbD_not, e1]
    by_cases h : j = i
    · simp [h]
    · by_cases hj : j < 14
      · simp [h, hj]
      · simp [h, hj, BitVec.getLsbD_of_ge v j (by omega)]
  · simp only [if_true, BitVec.getLsbD_or, e1]
    by_cases h : j = i <;> simp [h]

/-- One more slot keeps the bank's form. -/
theorem bank_add_inv {b : FilterBank} {x k} (hb : b.Inv) (hc : b.count.toNat < 14) : (b.add x k).Inv := by
  have h1 : (b.count + 1).toNat = b.count.toNat + 1 := by rw [BitVec.toNat_add]; simp; omega
  constructor
  · simp only [FilterBank.add, h1]; omega
  · intro i hi
    simp only [FilterBank.add, h1] at hi ⊢
    rw [Vector.getElem?_setIfInBounds]
    rw [if_neg (by omega)]
    exact hb.w1_zero i (by omega)
  · intro i hi
    simp only [FilterBank.add, h1] at hi ⊢
    rw [Vector.getElem?_setIfInBounds]
    rw [if_neg (by omega)]
    exact hb.w2_zero i (by omega)
  · intro i hi
    simp only [FilterBank.add, h1] at hi ⊢
    rw [setBit_get _ _ _ _ hc, setBit_get _ _ _ _ hc, setBit_get _ _ _ _ hc]
    rw [if_neg (by omega), if_neg (by omega), if_neg (by omega)]
    exact hb.bits_zero i (by omega)

/-- One more slot adds its logical entries to its own FIFO alone (10_state.md R37). -/
theorem entries_add {b : FilterBank} {x k k'} (hc : b.count.toNat < 14) :
    (b.add x k).entries k' (b.add x k).count.toNat =
      b.entries k' b.count.toNat + if k = k' then slotEntries x.scale x.mode else 0 := by
  have h1 : (b.count + 1).toNat = b.count.toNat + 1 := by rw [BitVec.toNat_add]; simp; omega
  have aux : ∀ n, n ≤ b.count.toNat → (b.add x k).entries k' n = b.entries k' n := by
    intro n hn
    induction n with
    | zero => rfl
    | succ n ih =>
      simp only [FilterBank.entries, ih (by omega)]
      simp only [FilterBank.add, setBit_get _ _ _ _ hc]
      rw [if_neg (by omega : ¬ n = b.count.toNat), if_neg (by omega : ¬ n = b.count.toNat), if_neg (by omega : ¬ n = b.count.toNat)]
  show (b.add x k).entries k' (b.count + 1).toNat = _
  rw [h1]
  simp only [FilterBank.entries, aux _ (Nat.le_refl _)]
  simp only [FilterBank.add, setBit_get _ _ _ _ hc, if_true]
  cases k <;> cases k' <;> simp [fifoBit]

/-- A slot has at most four logical entries. -/
theorem entries_le {b : FilterBank} {k} (n : Nat) : b.entries k n ≤ 4 * n := by
  induction n with
  | zero => simp [FilterBank.entries]
  | succ n ih =>
    simp only [FilterBank.entries]
    split
    · unfold slotEntries; split <;> omega
    · omega

/-- References beyond those written stay. -/
theorem writeRefs_get (cs refs : List Nat) (i j : Nat) (h : i + cs.length ≤ j) :
    (writeRefs refs i cs)[j]? = refs[j]? := by
  induction cs generalizing refs i with
  | nil => rfl
  | cons c cs ih =>
    simp only [List.length_cons] at h
    rw [writeRefs, ih _ _ (by omega), List.getElem?_set_ne (by omega)]

/-- Writing references keeps the size of the array. -/
theorem writeRefs_length (cs refs : List Nat) (i : Nat) : (writeRefs refs i cs).length = refs.length := by
  induction cs generalizing refs i with
  | nil => rfl
  | cons c cs ih => rw [writeRefs, ih, List.length_set]

/-- Every element after a write was one before or is one written. -/
theorem mem_writeRefs {cs refs : List Nat} {i r : Nat} (h : r ∈ writeRefs refs i cs) : r ∈ refs ∨ r ∈ cs := by
  induction cs generalizing refs i with
  | nil => exact .inl h
  | cons c cs ih =>
    rcases ih h with h | h
    · rcases List.mem_or_eq_of_mem_set h with h | rfl
      · exact .inl h
      · exact .inr List.mem_cons_self
    · exact .inr (List.mem_cons_of_mem _ h)

/-- Appending references that fit keeps a callback array's form while there is room. -/
theorem append_callbacks_inv {c : Config} {a : CallbackArray} {cs : List Nat} (h : a.Inv c)
    (hl : a.len + cs.length ≤ c.ncb) (hf : ∀ r ∈ cs, r < 2 ^ c.wCb) : (a.append cs).Inv c where
  size := by rw [CallbackArray.append, writeRefs_length, h.size]
  len_le := hl
  zero := fun j hj => by
    simp only [CallbackArray.append] at hj ⊢
    rw [writeRefs_get _ _ _ _ hj]
    exact h.zero j (by omega)
  fits := fun r hr => by
    rcases mem_writeRefs hr with hr | hr
    · exact h.fits r hr
    · exact hf r hr

theorem empty_callbacks_inv (c : Config) : (CallbackArray.empty c.ncb).Inv c where
  size := List.length_replicate
  len_le := Nat.zero_le _
  zero := fun i _ => by simp only [CallbackArray.empty, List.getElem?_replicate]; split <;> rfl
  fits := fun r hr => by rw [List.eq_of_mem_replicate hr]; exact Nat.two_pow_pos _

/-- A filter command keeps the invariant, failed or committed. -/
theorem filterCommand_inv {k ao x} {s : State} (i : s.Inv) (hx : x.callbacks.length = slotEntries x.scale x.mode)
    (hf : ∀ r ∈ x.callbacks, r < 2 ^ s.cfg.wCb) : (filterCommand k ao x s).Inv := by
  unfold filterCommand
  split
  · exact finish_inv i
  · rename_i h
    have hc : s.bank.count.toNat < 14 := by
      have := i.bank.count_le
      simp [Config.nslot] at h; omega
    refine finish_inv ?_
    have hl := i.cb_len k
    have he := entries_le (b := s.bank) (k := k) s.bank.count.toNat
    have hs4 : slotEntries x.scale x.mode ≤ 4 := by unfold slotEntries; split <;> omega
    have hncb : 56 ≤ s.cfg.ncb := i.cfg_wf.2.2.2.2
    constructor
    · simpa using i.cfg_wf
    · intro q; have := i.queues q; cases q <;> simpa [State.queue] using this
    · intro q; have := i.queue_fits q; cases q <;> simpa [State.queue] using this
    · simpa using bank_add_inv i.bank hc
    · intro k'
      simp only [setCb_cb, setCb_bank]
      rw [entries_add hc]
      split
      · rename_i h'; subst h'
        simp only [CallbackArray.append, if_true]
        rw [← hl, hx]
      · rename_i h'
        rw [if_neg (fun h => h' h.symm)]; have := i.cb_len k'; cases k' <;> simpa [State.cb] using this
    · intro k'
      simp only [setCb_cb, setCb_cfg]
      split
      · exact append_callbacks_inv (i.cb k) (by omega) hf
      · exact i.cb k'
    · intro k'; simp only [setCb_dcb, setCb_cfg]; exact i.dcb k'
    · simpa using i.sizes
    · simpa using i.seq_init
    · simpa using i.gate
    · simpa using i.op_running
    · simpa using i.op_mailbox
    · simpa using i.op_atomic
    · simpa using i.op_fits
    · simpa using i.tx_empty

theorem sendCode_inv {s : State} {c} (i : s.Inv) : (s.sendCode c).Inv := finish_inv i

theorem sendQueued_inv {s : State} {f : Frame} (i : s.Inv) (hr : s.dState = .running)
    (hf : f.idx < 2 ^ s.cfg.wFmi) : (sendQueued f s).Inv := by
  unfold sendQueued
  split
  · exact sendCode_inv (emit_inv i)
  · split
    · rename_i q h
      exact sendCode_inv (setQueue_inv' i (append_inv (i.queues .txq) h) (append_fits (i.queue_fits .txq) hf h)
        (by simp [hr]))
    · exact sendCode_inv i

theorem opIdle_inv {s : State} (i : s.Inv) : ({s with op := .idle} : State).Inv := by
  constructor
  · exact i.cfg_wf
  · exact i.queues
  · exact i.queue_fits
  · exact i.bank
  · exact i.cb_len
  · exact i.cb
  · exact i.dcb
  · exact i.sizes
  · exact i.seq_init
  · exact i.gate
  · simp
  · simp
  · simp
  · simp [MainOp.frame]
  · exact i.tx_empty

theorem setOp_inv {s : State} {o} (i : s.Inv) (h1 : s.dState = .running) (h2 : ∀ f, o ≠ .sendWrite .mb0 f)
   (h3 : s.cfg.directAtomic = true → ∀ m f, o ≠ .sendWrite m f)
   (h4 : ∀ f, o.frame = some f → f.idx < 2 ^ s.cfg.wFmi) : ({s with op := o} : State).Inv := by
  constructor
  · exact i.cfg_wf
  · exact i.queues
  · exact i.queue_fits
  · exact i.bank
  · exact i.cb_len
  · exact i.cb
  · exact i.dcb
  · exact i.sizes
  · exact i.seq_init
  · exact i.gate
  · exact fun _ => h1
  · exact h2
  · exact h3
  · exact h4
  · exact i.tx_empty

theorem sendWriteStep_inv {s s' : State} {m f} (i : s.Inv) (h : sendWriteStep m f s = .next s') : s'.Inv := by
  unfold sendWriteStep at h
  split at h
  · cases h; exact sendCode_inv (opIdle_inv (emit_inv i))
  · cases h

theorem sendDirect_inv {s s' : State} {m f} (i : s.Inv) (hm : m ≠ .mb0) (hr : s.dState = .running)
    (hf : f.idx < 2 ^ s.cfg.wFmi)
    (h : sendDirect m f s = .next s') : s'.Inv := by
  unfold sendDirect at h
  split at h
  · cases h; exact sendCode_inv i
  · split at h
    · exact sendWriteStep_inv i h
    · cases h
      rename_i ha
      exact setOp_inv i hr (by simp [hm]) (by simp [ha]) (by simpa [MainOp.frame] using hf)

theorem running_of {s : State} (h : ¬ (!s.isRunning) = true) : s.dState = .running := by
  simpa [State.isRunning] using h

/-- POP keeps the invariant when what follows an empty queue does. -/
theorem dispatchPop_inv {k c oe} {s : State} (i : s.Inv) (hr : s.dState = .running) (hoe : (oe s).Inv) : (dispatchPop k c oe s).Inv := by
  unfold dispatchPop
  split
  · exact hoe
  · rename_i f q h
    have hf := remove_fits (i.queues _) (i.queue_fits _) h
    exact setOp_inv (setQueue_inv' i (remove_inv (i.queues _) h) hf.1 (by simp [hr])) (by simpa using hr) (by simp)
      (by simp) (by simpa [MainOp.frame] using hf.2)

/-- A decoded frame has an index of W_FMI bits. -/
theorem decodeRx_idx_lt (l : RxLayout) (w : Nat) (s0 s1 d0 d1 : Word) : (decodeRx l w s0 s1 d0 d1).idx < 2 ^ w :=
  fit_lt _ _

/-- A Frame operand has an index of W_FMI bits. -/
theorem operandFrame_idx_lt (s : State) : s.operandFrame.idx < 2 ^ s.cfg.wFmi := fit_lt _ _

/-- A receive queue is not TXQ. -/
theorem rxQueueOf_ne_txq (k : FifoId) : rxQueueOf k ≠ .txq := by cases k <;> simp [rxQueueOf]

/-- The receive part of H_RXk keeps the invariant, the frame appended or dropped. -/
theorem receiveFrame_inv {s : State} {k} (hs : s.Inv) : (receiveFrame k s).Inv := by
  unfold receiveFrame
  refine emit_inv ?_
  cases h : (s.queue (rxQueueOf k)).append (decodeRx s.cfg.rxLayout s.cfg.wFmi (s.env.rx k).rxs0 (s.env.rx k).rxs1
      (s.env.rx k).rxd0 (s.env.rx k).rxd1) with
  | none => exact setQueue_inv' hs (hs.queues _) (hs.queue_fits _) fun hk => absurd hk (rxQueueOf_ne_txq k)
  | some q =>
    exact setQueue_inv' hs (append_inv (hs.queues _) h)
      (append_fits (hs.queue_fits _) (decodeRx_idx_lt _ _ _ _ _ _) h) fun hk => absurd hk (rxQueueOf_ne_txq k)

/-- H_RXk keeps the invariant. -/
theorem receiveHandler_inv {s : State} {k} (hs : s.Inv) : (receiveHandler k s).Inv := by
  have h1 : (if (s.env.rx k).fmp then receiveFrame k s else s).Inv := by
    split
    · exact receiveFrame_inv hs
    · exact hs
  unfold receiveHandler
  simp only
  split
  · refine emit_inv ?_
    split
    · exact emit_inv h1
    · exact h1
  · split
    · exact emit_inv h1
    · exact h1

end Machine
end Sys2Proof
end

