-- ==== Sys2Proof/Laws/Step.lean ====
section
/-!
SUPPORT. What a step can do, said once: the inversion lemmas of the schedule, of MAIN, of the handler gate.
-/

namespace Sys2Proof
namespace Machine

/-- Whose step it is: MAIN's with no turn left, else the head turn's on the state without it. -/
theorem step_cases (s : State) :
    (s.turns = [] ∧ step s = mainStep s) ∨
      ∃ t ts, s.turns = t :: ts ∧ step s = turnStep t { s with turns := ts } := by
  unfold step
  split
  · exact .inl ⟨‹_›, rfl⟩
  · exact .inr ⟨_, _, ‹_›, rfl⟩

/-- When MAIN's step is next, the step is MAIN's on the state without that turn. -/
theorem step_mainNext {s : State} {ts : List Turn} (h : s.mainNext ts) : step s = mainStep { s with turns := ts } := by
  rcases h with h | ⟨h, rfl⟩
  · simp [step, h, turnStep]
  · rw [step, h]
    cases s
    cases h
    rfl

/-- MAIN's step: the command in progress, else the host's next action, else nothing. -/
theorem mainStep_cases (s : State) :
    (s.busy = true ∧ mainStep s = continueMain s) ∨
      (s.busy = false ∧ s.host = [] ∧ mainStep s = .next s) ∨
      (s.busy = false ∧ ∃ h hs, s.host = h :: hs ∧ mainStep s = hostStep h { s with host := hs }) := by
  unfold mainStep
  split
  · exact .inl ⟨‹_›, rfl⟩
  · have hb : s.busy = false := by simpa using ‹¬ s.busy = true›
    split
    · exact .inr (.inl ⟨hb, ‹_›, rfl⟩)
    · exact .inr (.inr ⟨hb, _, _, ‹_›, rfl⟩)

/-- MAIN holds no command exactly when SEQ and the continuation are idle. -/
theorem busy_eq_false {s : State} : s.busy = false ↔ s.seq = .idle ∧ s.op = .idle := by
  simp [State.busy]

/-- A command word is illegal and changes only STATUS, or runs its instruction. -/
theorem runCommand_cases (w : Word) (s : State) :
    (∃ e, decode (.command w) = .error e ∧ runCommand w s = .next s.illegal) ∨
      ∃ i, decode (.command w) = .ok i ∧ runCommand w s = exec i s := by
  unfold runCommand
  split
  · exact .inl ⟨_, ‹_›, rfl⟩
  · exact .inr ⟨_, ‹_›, rfl⟩

/-- The gate of a handler (10_state.md R47). -/
theorem enterHandler_open {bit : Nat} {body : State → Result} {s : State} (h : s.irqEn.getLsbD bit = true) :
    enterHandler bit body s = body s := by
  unfold enterHandler
  rw [if_pos h]

theorem enterHandler_closed {bit : Nat} {body : State → Result} {s : State} (h : s.irqEn.getLsbD bit = false) :
    enterHandler bit body s = .next s := by
  unfold enterHandler
  rw [h]
  rfl

/-- Step WRITE of a direct SEND ends in exactly one of two ways (44_driver.md R252). -/
theorem sendWriteStep_cases (m : Mailbox) (f : Frame) (s : State) :
    (s.env.tme m = true ∧
      sendWriteStep m f s = .next ({ (s.emit (.pMbWrite m f)) with op := .idle }.sendCode 0)) ∨
    (s.env.tme m = false ∧ sendWriteStep m f s = .fault .mailboxTaken) := by
  unfold sendWriteStep
  split
  · exact .inl ⟨‹_›, rfl⟩
  · exact .inr ⟨by simpa using ‹¬ s.env.tme m = true›, rfl⟩

/-- What H_TX can do (60_exceptions.md R289): nothing, clear the flag, drain one frame, or the fault. -/
theorem transmitHandler_cases (s : State) :
    (s.env.txc = false ∧ transmitHandler s = .next s) ∨
    (s.env.txc = true ∧ (s.env.anyFree = false ∨ s.txq.remove .txq = none) ∧
      transmitHandler s = .next (s.emit .pClrTxc)) ∨
    (s.env.txc = true ∧ s.env.anyFree = true ∧ ∃ f q, s.txq.remove .txq = some (f, q) ∧
      ((s.env.freeMailbox = none ∧ transmitHandler s = .fault .badCode) ∨
        ∃ m, s.env.freeMailbox = some m ∧
          transmitHandler s = .next ((s.setQueue .txq q).emitAll [.pMbWrite m f, .pClrTxc]))) := by
  unfold transmitHandler
  cases hc : s.env.txc
  · exact .inl ⟨rfl, rfl⟩
  · cases ha : s.env.anyFree
    · exact .inr (.inl ⟨rfl, .inl rfl, rfl⟩)
    · cases hr : s.txq.remove .txq with
      | none => exact .inr (.inl ⟨rfl, .inr rfl, rfl⟩)
      | some p =>
        obtain ⟨f, q⟩ := p
        refine .inr (.inr ⟨rfl, rfl, f, q, rfl, ?_⟩)
        cases hm : s.env.freeMailbox with
        | none => exact .inl ⟨rfl, rfl⟩
        | some m => exact .inr ⟨m, rfl, rfl⟩

end Machine
end Sys2Proof
end

