-- ==== Sys2Proof/Tests/Slice0.lean ====
section
/-!
SUPPORT. Tests and witnesses. Expected values are those of 95_test_vectors.md (V.., P.., §2.7) or counted by hand from the
rule named; a `witness_` theorem meets the hypotheses of the obligation it is named after.
-/

namespace Sys2Proof
namespace Machine
namespace Tests

/-! ### Small states -/

/-- The reset state at CLK = 36 MHz, the clock of the spec's programs. -/
def base : State := State.resetWith { clk := 36000000#32 }

def f1 : Frame := ⟨0x101, false, false, 1, 0, 0x11, 0⟩
def f2 : Frame := ⟨0x102, false, false, 1, 0, 0x22, 0⟩
def f3 : Frame := ⟨0x103, false, false, 1, 0, 0x33, 0⟩
def f4 : Frame := ⟨0x104, false, false, 1, 0, 0x44, 0⟩

/-- The frame `g(i, x)` of 95_test_vectors.md §2.5. -/
def g (i : Nat) (x : Word) : Frame := ⟨0x200, false, false, 1, i, x, 0⟩

/-- 3/0/2/2 with f1, f2. -/
def twoOfThree : Queue := { cap := 3, rd := 0, cnt := 2, peak := 2, store := [(0, f1), (1, f2)] }
/-- 3/1/2/3 with f2, f3 (V4 after one removal). -/
def wrapping : Queue := { cap := 3, rd := 1, cnt := 2, peak := 3, store := [(0, f1), (1, f2), (2, f3)] }
/-- 1/0/1/1 with f1. -/
def fullOne : Queue := { cap := 1, rd := 0, cnt := 1, peak := 1, store := [(0, f1)] }
/-- 2/0/0/0. -/
def emptyTwo : Queue := Queue.init 2

/-- A running driver with two frames in each queue and mailbox 0 busy. -/
def running : State :=
  { base with
    dState := .running
    irqEn := 7
    rxq0 := twoOfThree
    rxq1 := twoOfThree
    txq := twoOfThree }

/-- A queue emptied and freed: the stopped driver. -/
def stopped : State := { base with dState := .stopped }

/-- The registers A0 .. A11 from a list. -/
def withArgs (s : State) (xs : List Word) : State := { s with a := Vector.ofFn fun i => xs[i.val]?.getD 0 }

/-- The configuration of V11. -/
def v11 : State :=
  { base with
    settings := { base.settings with rate := 500000, tol := 1000 }
    timing := { brp := 3, ps1 := 16, ps2 := 7, rjw := 4, ts := false, ok := true } }

/-- One fact about a next state. -/
def after {α : Type} (r : Result) (view : State → α) : Option α :=
  match r with
  | .next s => some (view s)
  | .fault _ => none
  | .refused _ => none

/-- CAP, RD, CNT, PEAK. -/
def Queue.shape (q : Queue) : List Nat := [q.cap, q.rd, q.cnt, q.peak]

/-- STATUS and RES. -/
def report (s : State) : Nat × Nat := (s.statusWord.toNat, s.res.toNat)

/-! ### Well-formed instructions (the check refuses each ill-formed term) -/

theorem test_wf_refuses_wide_qinit : (Instr.qinit .txq 65536).wf = false := by decide
theorem test_wf_refuses_wide_tset : (Instr.tset .brp 65536).wf = false := by decide
theorem test_wf_refuses_wide_sset : (Instr.sset .rx0sz 65536).wf = false := by decide
theorem test_wf_refuses_wide_fget : (Instr.fget .cb1 65536).wf = false := by decide
theorem test_wf_accepts_the_largest : (Instr.qinit .txq 65535).wf = true := by decide

/-! ### Decoding: words written out by 95_test_vectors.md §2.7 from the encoding -/

theorem test_decode_queue_words :
    decode (.command 0x1002FFFF#32) = .ok (.qinit .txq 65535) ∧
    decode (.command 0x11010000#32) = .ok (.qappend .rxq1) ∧
    decode (.command 0x12020000#32) = .ok (.qremove .txq) ∧
    decode (.command 0x13010000#32) = .ok (.qfree .rxq1) ∧
    decode (.command 0x14020000#32) = .ok (.qrstpeak .txq) ∧
    decode (.command 0x15010000#32) = .ok (.qcount .rxq1) ∧
    decode (.command 0x16000000#32) = .ok (.qpeak .rxq0) ∧
    decode (.command 0x17020000#32) = .ok (.qcap .txq) := by decide

theorem test_decode_timing_words :
    decode (.command 0x20000000#32) = .ok .resolve ∧
    decode (.command 0x21020000#32) = .ok (.tset .ps2 0) ∧
    decode (.command 0x22030000#32) = .ok (.tget .rjw) ∧
    decode (.command 0x23000000#32) = .ok .tcheck ∧
    decode (.command 0x24000000#32) = .ok .trate ∧
    decode (.command 0x25000000#32) = .ok .texact ∧
    decode (.command 0x26000000#32) = .ok .tppm ∧
    decode (.command 0x27000000#32) = .ok .tsample ∧
    decode (.command 0x28010010#32) = .ok (.sset .rx1sz 16) ∧
    decode (.command 0x29050000#32) = .ok (.sget .oc) := by decide

theorem test_decode_filter_words :
    decode (.command 0x30010000#32) = .ok (.fstdmask .fifo1) ∧
    decode (.command 0x31000000#32) = .ok (.fstdquad .fifo0) ∧
    decode (.command 0x32000000#32) = .ok (.fextmask .fifo0) ∧
    decode (.command 0x33010000#32) = .ok (.fextdual .fifo1) ∧
    decode (.command 0x34000000#32) = .ok .fcount ∧
    decode (.command 0x35080037#32) = .ok (.fget .cb1 55) := by decide

theorem test_decode_driver_words :
    decode (.command 0x40000000#32) = .ok .drvBegin ∧
    decode (.command 0x41000000#32) = .ok .drvEnd ∧
    decode (.command 0x42000000#32) = .ok .send ∧
    decode (.command 0x43000000#32) = .ok .recv0 ∧
    decode (.command 0x44000000#32) = .ok .recv1 ∧
    decode (.command 0x45000000#32) = .ok .disp0 ∧
    decode (.command 0x46000000#32) = .ok .disp1 ∧
    decode (.command 0x47000000#32) = .ok .disp ∧
    decode (.command 0x48000000#32) = .ok .avail0 ∧
    decode (.command 0x49000000#32) = .ok .avail1 ∧
    decode (.command 0x4A000000#32) = .ok .dstate := by decide

theorem test_decode_vector_codes :
    decode (.vector 0b00#2) = .ok .isrRx0 ∧ decode (.vector 0b01#2) = .ok .isrRx1 ∧
    decode (.vector 0b10#2) = .ok .isrTx ∧ decode (.vector 0b11#2) = .error .reservedVector := by decide

theorem test_decode_refuses_illegal_words :
    decode (.command 0x00000000#32) = .error .unknownOpcode ∧
    decode (.command 0x18000000#32) = .error .unknownOpcode ∧
    decode (.command 0x2A000000#32) = .error .unknownOpcode ∧
    decode (.command 0x36000000#32) = .error .unknownOpcode ∧
    decode (.command 0x4B000000#32) = .error .unknownOpcode ∧
    decode (.command 0xFF000000#32) = .error .unknownOpcode ∧
    decode (.command 0x40000001#32) = .error .unusedField ∧
    decode (.command 0x40010000#32) = .error .unusedField ∧
    decode (.command 0x11030000#32) = .error .reservedQueue ∧
    decode (.command 0x12000001#32) = .error .unusedField ∧
    decode (.command 0x30020000#32) = .error .reservedFifo ∧
    decode (.command 0x22060000#32) = .error .reservedSelector ∧
    decode (.command 0x29080000#32) = .error .reservedSelector ∧
    decode (.command 0x35090000#32) = .error .reservedSelector := by decide

theorem test_table_words :
    decodeTableWord 32 0x42000000 = some .send ∧ decodeTableWord 8 2 = some .isrTx ∧
    decodeTableWord 8 3 = none ∧ decodeTableWord 32 0 = none := by decide

/-- Frame packing examples of §2.7. -/
theorem test_frame_packing :
    FrameRegs.pack 8 ⟨0x123, false, false, 2, 0, 0xBBAA, 0⟩ = ⟨0x00000123, 0x00000002, 0x0000BBAA, 0⟩ ∧
    FrameRegs.pack 8 ⟨0x1ABCDE0F, true, true, 0, 2, 0, 0⟩ = ⟨0x7ABCDE0F, 0x00000200, 0, 0⟩ ∧
    (FrameRegs.unpack 8 ⟨0x80000123, 0, 0, 0⟩) = ⟨0x123, false, false, 0, 0, 0, 0⟩ := by decide

/-! ### Reset -/

theorem test_reset_memory_is_canonical :
    Memory.wf State.reset.rxq0.store ∧ Memory.wf State.reset.rxq1.store ∧ Memory.wf State.reset.txq.store := by decide

/-- A placed command is the first thing step runs: DSTATE after reset gives RES 0, STATUS 0x01 (V59). -/
theorem test_first_step_runs_the_placed_word :
    after (step (State.reset.withFetchWord 32 0x4A000000)) report = some (0x01, 0) := by decide

theorem test_first_step_runs_the_placed_strobe :
    after (step (State.reset.withFetchWord 8 0)) report = some (0, 0) := by decide

theorem test_illegal_word_sets_illegal :
    after (step (State.reset.withFetchWord 32 0x40000001)) report = some (0x04, 0) := by decide

/-! ### Frame queues -/

/-- V2, V3: QINIT. -/
theorem test_qinit : after (exec (.qinit .rxq0 3) base) (fun t => (report t, Queue.shape t.rxq0)) =
    some ((0x01, 0), [3, 0, 0, 0]) := by decide
/-- V8: refused while running. -/
theorem test_qinit_owned : after (exec (.qinit .rxq0 4) running) report = some (0x02, 0) := by decide
/-- V5: the second append of the wrap writes slot 0. -/
theorem test_qappend_wraps :
    after (exec (.qappend .rxq0) { base with rxq0 := wrapping, fop := FrameRegs.pack 8 f4 })
      (fun t => (Queue.shape t.rxq0, memRead t.rxq0.store 0, memRead t.rxq0.store 1)) =
    some ([3, 1, 3, 3], some f4, some f2) := by decide
/-- V1: a queue of capacity 0 takes nothing. -/
theorem test_qappend_unallocated : after (exec (.qappend .rxq0) base) report = some (0x00, 0) := by decide
/-- V4: the second removal. -/
theorem test_qremove :
    after (exec (.qremove .rxq0) { base with rxq0 := wrapping })
      (fun t => (t.statusWord.toNat, t.fres.unpack 8, Queue.shape t.rxq0)) = some (0x11, f2, [3, 2, 1, 3]) := by decide
/-- V7. -/
theorem test_qfree : after (exec (.qfree .txq) { base with txq := wrapping }) (fun t => Queue.shape t.txq) =
    some [0, 0, 0, 0] := by decide
/-- R145. -/
theorem test_qrstpeak : after (exec (.qrstpeak .rxq0) { base with rxq0 := wrapping }) (fun t => Queue.shape t.rxq0) =
    some [3, 1, 2, 2] := by decide
/-- R146, R147, R148. -/
theorem test_queue_reads :
    after (exec (.qcount .rxq1) { base with rxq1 := wrapping }) report = some (0x01, 2) ∧
    after (exec (.qpeak .rxq1) { base with rxq1 := wrapping }) report = some (0x01, 3) ∧
    after (exec (.qcap .rxq1) { base with rxq1 := twoOfThree }) report = some (0x01, 3) := by decide

/-! ### Bit timing -/

/-- BRP, PS1, PS2, RJW, TS, OK as numbers. -/
def Timing.shape (t : Timing) : List Nat :=
  [t.brp.toNat, t.ps1.toNat, t.ps2.toNat, t.rjw.toNat, t.ts.toNat, t.ok.toNat]

/-- V11. -/
theorem test_resolve :
    after (exec .resolve (withArgs base [500000, 1000])) (fun t => (Timing.shape t.timing, report t, t.settings.tol)) =
    some ([3, 16, 7, 4, 0, 1], (0x01, 1), 1000) := by decide
/-- V20: no candidate in range. -/
theorem test_resolve_fallback :
    Timing.shape (resolveTiming 36000000 1000 1000) = [1024, 16, 8, 4, 1, 0] := by decide
/-- V21, V28, V29. -/
theorem test_search_corners :
    Timing.shape (resolveTiming 36000000 40000000 1000) = [1, 2, 2, 2, 0, 0] ∧
    Timing.shape (resolveTiming 48000000 842000 126) = [3, 12, 6, 4, 0, 1] ∧
    Timing.shape (resolveTiming 48000000 842000 125) = [3, 12, 6, 4, 0, 0] := by decide
/-- §2.3: register access. -/
theorem test_tset :
    after (exec (.tset .brp 65535) v11) (fun t => (t.timing.brp.toNat, t.timing.ok)) = some (65535, true) ∧
    after (exec (.tset .ps1 256) v11) report = some (0x02, 0) := by decide
theorem test_tget : after (exec (.tget .brp) v11) report = some (0x01, 3) := by decide
/-- V36, V38, V30, V34. -/
theorem test_tcheck :
    after (exec .tcheck { v11 with timing := { v11.timing with ps2 := 0 } }) report = some (0x00, 0x010) ∧
    after (exec .tcheck { v11 with
        timing := { v11.timing with ps1 := 0, ts := true }, settings := { v11.settings with rate := 100000 } }) report =
      some (0x00, 0x004) ∧
    after (exec .tcheck base) report = some (0x00, 0x055) ∧
    after (exec .tcheck { v11 with timing := { v11.timing with ps2 := 3, rjw := 9 } }) report = some (0x00, 0x180) := by
  decide
/-- V35. -/
theorem test_tcheck_too_big :
    after (exec .tcheck { v11 with timing := ⟨1025, 17, 9, 5, true, true⟩ }) report = some (0x00, 0x2AA) := by decide
/-- V14 at its configuration. -/
def v14 : State :=
  { v11 with
    settings := { v11.settings with rate := 125001 }
    timing := { v11.timing with brp := 12 } }
theorem test_trate : after (exec .trate v14) report = some (0x01, 125000) := by decide
theorem test_texact : after (exec .texact v14) report = some (0x00, 0) ∧ after (exec .texact v11) report = some (0x01, 1) := by
  decide
theorem test_tppm : after (exec .tppm v14) report = some (0x01, 7) := by decide
theorem test_tsample : after (exec .tsample v14) report = some (0x01, 70) ∧ after (exec .tsample base) report = some (0x01, 100) := by
  decide
theorem test_sset :
    after (exec (.sset .txsz 2) base) (fun t => t.settings.txsz.toNat) = some 2 ∧
    after (exec (.sset .mode 4) base) report = some (0x02, 0) := by decide
theorem test_sget : after (exec (.sget .rate) v11) report = some (0x01, 500000) := by decide

/-! ### Filter bank -/

/-- RES, W1 and W2 of slot 0, the three bitmaps, the two lengths. -/
def bankView (s : State) : List Nat :=
  [s.res.toNat, s.bank.w1[0].toNat, s.bank.w2[0].toNat, s.bank.scale.toNat, s.bank.mode.toNat, s.bank.fifo.toNat,
    s.cb0.len, s.cb1.len]

/-- V40. -/
theorem test_fstdmask :
    after (exec (.fstdmask .fifo0) (withArgs base [0x010, 0x7F0, 2, 0x1000, 0x123, 0x7FF, 0, 0x2000])) bankView =
    some [0, 0xFE080200, 0xFFF82460, 0, 0, 0, 2, 0] := by decide
/-- V41. -/
theorem test_fstdmask_not_contained :
    after (exec (.fstdmask .fifo0) (withArgs base [0x011, 0x7F0, 2, 0x1000, 0x123, 0x7FF, 0, 0x2000]))
      (fun t => (report t, t.bank.count.toNat)) = some ((0x00, 0), 0) := by decide
/-- V43. -/
theorem test_fstdquad :
    after (exec (.fstdquad .fifo1) (withArgs base [0x100, 0, 0xA1, 0x101, 1, 0xA2, 0x102, 0, 0, 0x7FF, 0, 0xA4])) bankView =
    some [0, 0x20302000, 0xFFE02040, 0, 1, 1, 0, 4] := by decide
/-- V45 on an empty bank. -/
theorem test_fextmask :
    after (exec (.fextmask .fifo1) (withArgs base [0x18DAF100, 0x1FFFFF00, 1, 0xC1])) bankView =
    some [0, 0xC6D78806, 0xFFFFF806, 1, 0, 1, 0, 1] := by decide
/-- V44 on an empty bank. -/
theorem test_fextdual :
    after (exec (.fextdual .fifo0) (withArgs base [0x1ABCDE0F, 0, 0xB1, 0x00000001, 1, 0xB2])) bankView =
    some [0, 0xD5E6F07C, 0x0000000E, 1, 1, 0, 2, 0] := by decide
theorem test_fcount : after (exec .fcount { base with bank := { base.bank with count := 2 } }) report = some (0x01, 2) := by
  decide
theorem test_fget :
    after (exec (.fget .cb1 55) { base with cb1 := { base.cb1 with refs := base.cb1.refs.set 55 0xA4 } }) report =
      some (0x01, 0xA4) ∧
    after (exec (.fget .cb1 56) base) report = some (0x02, 0) := by decide

/-! ### Driver -/

/-- V30. -/
theorem test_begin_reports : after (exec .drvBegin base) (fun t => (report t, t.dState)) =
    some ((0x00, 0x455), .uninitialized) := by decide
/-- V61, P2 step 5. -/
theorem test_begin_step_a : after (exec .drvBegin v11) (fun t => (t.events, t.seq, t.statusWord.toNat)) =
    some ([.pClkEn, .pReset, .pPinCfg false, .pCfgEnter], .enterConfig, 0x08) := by decide
/-- P2 step 15. -/
theorem test_end : after (exec .drvEnd running) (fun t => (t.events, t.irqEn, t.dState, Queue.shape t.txq)) =
    some ([.nMask], 0, .stopped, [0, 0, 0, 0]) := by decide
/-- V50, V53. -/
theorem test_send_queued :
    after (exec .send { running with txq := emptyTwo, fop := FrameRegs.pack 8 (g 0 1), env := { Env.zero with tme0 := true } })
      (fun t => (t.events, report t, t.env.tme0)) = some ([.pMbWrite .mb0 (g 0 1)], (0x01, 0), false) ∧
    after (exec .send { running with txq := fullOne, fop := FrameRegs.pack 8 (g 0 3), env := { Env.zero with tme0 := true } })
      (fun t => (t.events, report t)) = some ([], (0x00, 2)) := by decide
/-- V54, V55. -/
theorem test_send_direct :
    after (exec .send { running with fop := FrameRegs.pack 8 (g 1 4), env := { Env.zero with tme1 := true } }) (fun t => t.op) =
      some (.sendWrite .mb1 (g 1 4)) ∧
    after (exec .send { running with fop := FrameRegs.pack 8 (g 2 5) }) report = some (0x00, 2) ∧
    after (exec .send { running with fop := FrameRegs.pack 8 (g 255 5) }) report = some (0x00, 1) := by decide
/-- V57. -/
theorem test_recv0 : after (exec .recv0 running) (fun t => (t.fres.unpack 8, t.statusWord.toNat, Queue.shape t.rxq0)) =
    some (f1, 0x11, [3, 1, 1, 2]) := by decide
theorem test_recv1 : after (exec .recv1 { running with rxq1 := emptyTwo, fres := FrameRegs.pack 8 f3 })
    (fun t => (t.fres.unpack 8, t.statusWord.toNat)) = some (f3, 0x00) := by decide
/-- V58. -/
theorem test_disp0 : after (exec .disp0 running) (fun t => (t.op, Queue.shape t.rxq0)) =
    some (.dispCall .fifo0 f1 false, [3, 1, 1, 2]) := by decide
/-- P2 step 12. -/
theorem test_disp1_empty : after (exec .disp1 { running with rxq1 := emptyTwo }) (fun t => (report t, t.events)) =
    some ((0x00, 0), []) := by decide
theorem test_disp : after (exec .disp { running with rxq0 := emptyTwo }) (fun t => t.op) = some (.dispSecond false) := by
  decide
theorem test_avail :
    after (exec .avail0 running) report = some (0x01, 2) ∧
    after (exec .avail1 { running with rxq1 := emptyTwo }) report = some (0x00, 0) := by decide
/-- V60. -/
theorem test_dstate : after (exec .dstate running) report = some (0x01, 0x702) := by decide

/-! ### Handlers -/

/-- V65. -/
theorem test_isr_rx0 :
    after (exec .isrRx0 { running with rxq0 := Queue.init 4, env := { Env.zero with
        fifo0 := ⟨true, false, false, 0x24600000, 0x00000108, 0x44332211, 0x88776655⟩ } })
      (fun t => (Queue.shape t.rxq0, memRead t.rxq0.store 0, t.events)) =
    some ([4, 0, 1, 1], some ⟨0x123, false, false, 8, 1, 0x44332211, 0x88776655⟩, [.pRxRelease .fifo0]) := by decide
/-- V66. -/
theorem test_isr_rx1 :
    after (exec .isrRx1 { running with rxq1 := Queue.init 4, env := { Env.zero with
        fifo1 := ⟨true, false, false, 0xD5E6F07E, 0x00000200, 0, 0⟩ } })
      (fun t => (memRead t.rxq1.store 0, t.events)) =
    some (some ⟨0x1ABCDE0F, true, true, 0, 2, 0, 0⟩, [.pRxRelease .fifo1]) := by decide
/-- V69: the frame is dropped, three events. -/
theorem test_isr_rx0_full :
    after (exec .isrRx0 { running with rxq0 := fullOne, env := { Env.zero with
        fifo0 := ⟨true, true, true, 0x24600000, 0x00000108, 0, 0⟩ } })
      (fun t => (t.rxq0, t.events)) =
    some (fullOne, [.pRxRelease .fifo0, .pClrFull .fifo0, .pClrOvr .fifo0]) := by decide
/-- V71. -/
theorem test_isr_tx :
    after (exec .isrTx { running with env := { Env.zero with tme2 := true, code := 2, txc := true } })
      (fun t => (t.events, Queue.shape t.txq)) = some ([.pMbWrite .mb2 f1, .pClrTxc], [3, 1, 1, 2]) := by decide
/-- V75. -/
theorem test_isr_tx_bad_code :
    exec .isrTx { running with env := { Env.zero with tme0 := true, code := 1, txc := true } } = .fault .badCode := by rfl
/-- V76: step WRITE after the handler took the mailbox. -/
theorem test_mailbox_taken :
    step { running with op := .sendWrite .mb1 (g 1 9) } = .fault .mailboxTaken := by rfl
/-- V65: the payload bytes. -/
theorem test_payload_bytes :
    (List.range 8).map (payloadByte ⟨0x123, false, false, 8, 1, 0x44332211, 0x88776655⟩) =
      [0x11, 0x22, 0x33, 0x44, 0x55, 0x66, 0x77, 0x88] := by decide

/-! ### Other parameters (00_scope.md R9) -/

/-- 3-bit counters, 8-bit callbacks, 4-bit index, 60 callbacks; the mask half of a filter below its identifier half, and
the index of a received frame at bit 48 of the status words. -/
def narrow : Config :=
  { clk := 36000000#32, qmax := 7, wIdx := 3, wCb := 8, wFmi := 4, ncb := 60
    filterLayout := { dualMask := [16, 0, 48, 32] }, rxLayout := { idx := 48 } }

/-- QMAX fits 3 bits; an eighth frame does not. -/
theorem test_narrow_counters :
    narrow.wf ∧
    after (exec (.qinit .txq 7) (State.resetWith narrow)) (fun t => Queue.shape t.txq) = some [7, 0, 0, 0] ∧
    after (exec (.qinit .txq 8) (State.resetWith narrow)) report = some (0x02, 0) := by decide

/-- A callback keeps 8 bits, the array has 60 elements, and the words of V40 have their halves exchanged. -/
theorem test_narrow_filter :
    after (exec (.fstdmask .fifo0)
      (withArgs (State.resetWith narrow) [0x010, 0x7F0, 2, 0x1FF, 0x123, 0x7FF, 0, 0x2000])) bankView =
        some [0, 0x0200FE08, 0x2460FFF8, 0, 0, 0, 2, 0] ∧
    after (exec (.fstdmask .fifo0)
      (withArgs (State.resetWith narrow) [0x010, 0x7F0, 2, 0x1FF, 0x123, 0x7FF, 0, 0x2000])) (fun t => t.cb0.refs.take 3) =
        some [0xFF, 0, 0] ∧
    after (exec (.fget .cb0 59) (State.resetWith narrow)) report = some (0x01, 0) ∧
    after (exec (.fget .cb0 60) (State.resetWith narrow)) report = some (0x02, 0) := by decide

/-- A 4-bit index, in a Frame operand and in the status words. -/
theorem test_narrow_index :
    (FrameRegs.unpack 4 ⟨0, 0xF308, 0, 0⟩).idx = 3 ∧ (FrameRegs.pack 4 (g 0x13 0)).w1 = 0x301 ∧
    (decodeRx narrow.rxLayout narrow.wFmi 0 0x00A50008 0 0).idx = 5 := by decide

/-! ### Witnesses: states that meet the hypotheses of each obligation -/

/-- A state with one host action and MAIN's turn next. -/
def hosted (s : State) (h : HostAction) : State := { s with host := [h], turns := [.main] }

/-- QMAX small enough for a size above it. -/
def smallQmax (s : State) : State := { s with cfg := { s.cfg with qmax := 16 } }

/-- BEGIN at one of its waits. -/
def waiting (q : Seq) (e : Env) : State := { v11 with dState := .initializing, seq := q, env := e, turns := [.main] }

theorem twoOfThree_inv : twoOfThree.Inv := by constructor <;> decide
theorem wrapping_inv : wrapping.Inv := by constructor <;> decide
theorem fullOne_inv : fullOne.Inv := by constructor <;> decide

theorem base_inv : base.Inv where
  cfg_wf := by decide
  queues := fun q => by cases q <;> exact unallocated_inv
  queue_fits := fun q => by cases q <;> exact unallocated_fits _
  bank := by
    constructor <;> simp [base, State.resetWith, FilterBank.empty, Vector.getElem?_replicate] <;> intros <;> split <;> rfl
  cb_len := fun k => by cases k <;> rfl
  cb := fun k => by cases k <;> exact empty_callbacks_inv _
  dcb := fun k => by cases k <;> exact empty_callbacks_inv _
  sizes := by decide
  seq_init := by decide
  gate := by decide
  op_running := by decide
  op_mailbox := fun _ => by simp [base, State.resetWith]
  op_atomic := fun h => absurd h (by decide)
  op_fits := fun _ h => by simp [base, State.resetWith, MainOp.frame] at h
  tx_empty := by decide

theorem running_inv : running.Inv where
  cfg_wf := base_inv.cfg_wf
  queues := fun q => by cases q <;> exact twoOfThree_inv
  queue_fits := fun q => by cases q <;> constructor <;> decide
  bank := base_inv.bank
  cb_len := base_inv.cb_len
  cb := base_inv.cb
  dcb := base_inv.dcb
  sizes := base_inv.sizes
  seq_init := by decide
  gate := by decide
  op_running := by decide
  op_mailbox := fun _ => by simp [running, base, State.resetWith]
  op_atomic := fun h => absurd h (by decide)
  op_fits := fun _ h => by simp [running, base, State.resetWith, MainOp.frame] at h
  tx_empty := by decide

/-- O1, O2: the widest immediate. -/
theorem witness_round_trip :
    (Instr.fget .cb1 65535).wf = true ∧ decode (.command 0x3508FFFF#32) = .ok (.fget .cb1 65535) := by decide

/-- O3: a code that selects a row and decodes, and one that selects a row with a reserved queue number. -/
theorem witness_table_rows :
    (∃ r ∈ opcodeTable, r.selects (.command 0x1002FFFF#32) = true) ∧
    (∃ r ∈ opcodeTable, r.selects (.command 0x1003FFFF#32) = true) ∧
    decode (.command 0x1003FFFF#32) = .error .reservedQueue := by decide

/-- O5. -/
theorem witness_illegal_word :
    (hosted base (.write 0 0x40000001)).busy = false ∧ (hosted base (.write 0 0x40000001)).turns = [.main] ∧
    (hosted base (.write 0 0x40000001)).host = [.write 0 0x40000001] ∧
    decode (.command 0x40000001) = .error .unusedField := by decide

/-- O6, with a turn and without one. -/
theorem witness_decoded_command :
    (hosted base (.write 0 0x23000000)).busy = false ∧ (hosted base (.write 0 0x23000000)).turns = [.main] ∧
    { hosted base (.write 0 0x23000000) with turns := [] }.turns = [] ∧
    decode (.command 0x23000000) = .ok .tcheck := by decide

/-- O5, O6, O10, O11, O38, O42, O45, O46: MAIN's turn is next, and no turn is left. -/
theorem witness_main_next (s : State) (h : HostAction) :
    (hosted s h).mainNext [] ∧ { hosted s h with turns := [] }.mainNext [] := ⟨.inl rfl, .inr ⟨rfl, rfl⟩⟩

/-- O7: a handler and the reserved code. -/
theorem witness_strobe :
    { running with turns := [.strobe 2, .main] }.turns = [.strobe 2, .main] ∧
    decode (.vector 2) = .ok .isrTx ∧ { running with turns := [.strobe 3] }.turns = [.strobe 3] := by decide

/-- O9. -/
theorem witness_reset_turn : { running with turns := [.reset] }.turns = [.reset] := by decide

/-- O10, O11: the first and the last number of each range of registers. -/
theorem witness_host_registers :
    ∀ reg ∈ [1, 3, 4, 7, 8, 11, 12, 15, 16, 27, 28], ∀ h ∈ [HostAction.read reg, HostAction.write reg 5],
      (hosted base h).busy = false ∧ (hosted base h).turns = [.main] ∧ (hosted base h).host = [h] := by decide

/-- O12: each outcome of QINIT, at QMAX and one above. -/
theorem witness_qinit :
    running.dState = .running ∧
    (smallQmax base).dState = .uninitialized ∧ (smallQmax base).cfg.qmax < 17 ∧ 16 ≤ (smallQmax base).cfg.qmax ∧
    stopped.dState = .stopped ∧ 65535 ≤ stopped.cfg.qmax ∧ narrow.wf ∧ 7 ≤ narrow.qmax := by decide

/-- O15: a step that lowers a PEAK to CNT, one that lowers it to 0, and each of the four commands not turned away. -/
theorem witness_peak_falls :
    wrapping.peak = 3 ∧
    after (step (hosted { base with rxq0 := wrapping } (.write 0 0x14000000))) (fun t => t.rxq0.peak) = some 2 ∧
    after (step (hosted { base with rxq0 := wrapping } (.write 0 0x13000000))) (fun t => t.rxq0.peak) = some 0 ∧
    after (exec (.qinit .rxq0 3) { base with rxq0 := wrapping }) (fun t => t.status.refused) = some false ∧
    after (exec (.qfree .rxq0) { base with rxq0 := wrapping }) (fun t => t.status.refused) = some false ∧
    (after (exec .drvBegin v11) (fun t => t.dState), v11.dState) = (some .initializing, .uninitialized) ∧
    (after (exec .drvEnd running) (fun t => t.dState), running.dState) = (some .stopped, .running) := by decide

/-- O13, O14: a free queue that is full, that has room, that is empty. -/
theorem witness_queue_commands :
    Memory.wf ({ base with rxq0 := fullOne }.queue .rxq0).store ∧
    ({ base with rxq0 := fullOne }.queue .rxq0).cnt = ({ base with rxq0 := fullOne }.queue .rxq0).cap ∧
    Memory.wf ({ stopped with txq := wrapping }.queue .txq).store ∧
    ({ stopped with txq := wrapping }.queue .txq).cnt ≠ ({ stopped with txq := wrapping }.queue .txq).cap ∧
    ({ stopped with txq := wrapping }.queue .txq).cnt ≠ 0 ∧ (base.queue .rxq1).cnt = 0 ∧
    memRead ({ stopped with txq := wrapping }.queue .txq).store 1 = some f2 := by decide

/-- O17. -/
theorem witness_capacity : 1 ≤ 2 ∧ [f1, f2].length = 2 := by decide

/-- O18: a wrapping, a full and an empty queue. -/
theorem witness_queue_invariant : wrapping.Inv ∧ fullOne.Inv ∧ (Queue.init 0).Inv :=
  ⟨wrapping_inv, fullOne_inv, init_inv 0⟩

/-- O19: rate 0 and the smallest other rate. -/
theorem witness_resolve : base.a[0] = 0 ∧ (withArgs base [1, 0]).a[0] ≠ 0 := by decide

/-- O20: with a candidate and without. -/
theorem witness_search : isCandidate 36000000 500000 24 3 ∧ ¬ ∃ tq b, isCandidate 36000000 1000 tq b := by
  constructor
  · unfold isCandidate
    decide
  · rintro ⟨tq, b, h1, h2, h3, h4, h5⟩
    interval_cases tq <;> simp at h3 <;> omega

/-- O21, O26. -/
theorem witness_resolved : (500000 : Word) ≠ 0 ∧ resolveTiming 36000000 (500000 : Word).toNat 1000 = v11.timing := by decide

/-- O22, O23: the bounds of each field. -/
theorem witness_field_bounds :
    65535 < 65536 ∧ 255 ≤ 255 ∧ 255 < 256 ∧ 256 < 65536 ∧ 16 ≤ (smallQmax base).cfg.qmax ∧
    (smallQmax base).cfg.qmax < 17 ∧ 65535 ≤ base.cfg.qmax := by decide

/-- O25. -/
theorem witness_tcheck : v11.cfg.wf := by decide

/-- O27: both sides of each condition. -/
theorem witness_queries :
    base.timing.brp = 0 ∧ v11.timing.brp ≠ 0 ∧
    base.settings.rate.toNat * (1 + base.timing.ps1.toNat + base.timing.ps2.toNat) * base.timing.brp.toNat = 0 ∧
    v11.settings.rate.toNat * (1 + v11.timing.ps1.toNat + v11.timing.ps2.toNat) * v11.timing.brp.toNat ≠ 0 := by decide

/-- O28: V28, resolved with T_OK set and TPPM answered. -/
def v28 : State := withArgs { base with cfg := { clk := 48000000#32 } } [842000, 126]
theorem witness_ppm :
    v28.a[0] ≠ 0 ∧ after (exec .resolve v28) (fun t => (t.timing.ok, after (exec .tppm t) report)) =
      some (true, some (0x01, 125)) ∧ v11.settings.rate ≠ 0 ∧ v11.timing.brp ≠ 0 := by decide

/-- O29 to O32: valid arguments on the last free slot, a full bank, an argument one too large. -/
def bankOf (n : BitVec 4) : State := { base with bank := { base.bank with count := n } }
theorem witness_filter_arguments :
    (bankOf 13).bank.count.toNat < 14 ∧ (bankOf 14).bank.count.toNat = 14 ∧
    (∀ i : Fin 12, (bankOf 13).a[i].toNat = 0) ∧ (bankOf 13).a[0] &&& (bankOf 13).a[1] = (bankOf 13).a[0] ∧
    ¬ (withArgs base [0x800]).a[0].toNat ≤ 0x7FF ∧ ¬ (withArgs base [0x20000000]).a[0].toNat ≤ 0x1FFFFFFF := by decide

/-- O33: the largest values; a callback array with room for four more. -/
theorem witness_filter_words :
    (0x7FF : Word).toNat ≤ 0x7FF ∧ (0x1FFFFFFF : Word).toNat ≤ 0x1FFFFFFF ∧ 13 < 14 ∧
    { CallbackArray.empty 56 with len := 52 }.len + [1, 2, 3, 4].length ≤ (CallbackArray.empty 56).refs.length ∧
    (0xFFFF : Word).toNat < 2 ^ 16 := by decide

/-- O34: the last index of each object and the first beyond. -/
theorem witness_fget :
    13 < 14 ∧ 14 ≤ 14 ∧ 55 < base.cfg.ncb ∧ base.cb0.refs[55]? = some 0 ∧ base.cb1.refs[55]? = some 0 ∧
    base.cfg.ncb ≤ 56 ∧ 1 ≠ 0 := by decide

/-- O35: every row's state or operand. -/
theorem witness_refused :
    running.dState = .running ∧ (smallQmax base).cfg.qmax < 17 ∧ base.a[0] = 0 ∧ base.timing.brp = 0 ∧
    base.settings.rate = 0 ∧ fgetSize base.cfg.ncb .cb1 ≤ 56 ∧ running.dState ≠ .uninitialized ∧ base.dState ≠ .running ∧
    Instr.send ∈ runningOnly := by decide

/-- O36, O37: a code that is not zero and one that is. -/
theorem witness_begin :
    base.dState = .uninitialized ∧
    (consistencyMask base.cfg.errBit base.timing base.settings.rate |||
      if base.timing.ok then 0 else 1#64 <<< base.cfg.errBit.tooFar) ≠ 0 ∧
    v11.dState = .uninitialized ∧ v11.timing.ok = true ∧
    consistencyMask v11.cfg.errBit v11.timing v11.settings.rate = 0 := by decide

/-- O37: its invariant clause. -/
theorem witness_begin_inv : v11.Inv := Same.inv (s := base) (by simp [Same, v11, State.queue, State.cb, State.dcb]) base_inv

/-- O38: the three waits, answered; an empty bank and one with a slot. -/
theorem witness_begin_waits :
    (waiting .enterConfig { Env.zero with inak := true }).env.inak = true ∧
    (waiting .leaveConfig Env.zero).env.inak = false ∧
    (waiting .mailbox0 { Env.zero with tme0 := true }).env.tme0 = true ∧
    (waiting .mailbox0 Env.zero).turns = [.main] ∧
    (waiting .mailbox0 Env.zero).bank.count = 0 ∧ (bankOf 1).bank.count ≠ 0 := by decide

/-- O39: the three waits, unanswered. -/
theorem witness_begin_holds :
    ((waiting .enterConfig Env.zero).seq = .enterConfig ∧ (waiting .enterConfig Env.zero).env.inak = false) ∧
    ((waiting .leaveConfig { Env.zero with inak := true }).seq = .leaveConfig ∧
      (waiting .leaveConfig { Env.zero with inak := true }).env.inak = true) ∧
    ((waiting .mailbox0 Env.zero).seq = .mailbox0 ∧ (waiting .mailbox0 Env.zero).env.tme0 = false) := by decide

/-- O40, O47. -/
theorem witness_end : running.dState = .running ∧ stopped.dState ≠ .running := by decide

/-- O41: the bypass, a full TXQ, a TXQ with room. -/
theorem witness_send_queued :
    { running with fop := FrameRegs.pack 8 (g 0 1) }.operandFrame.idx = 0 ∧ Memory.wf running.txq.store ∧
    { running with txq := emptyTwo, env := { Env.zero with tme0 := true } }.txq.cnt = 0 ∧
    { running with txq := fullOne }.txq.cnt = { running with txq := fullOne }.txq.cap ∧
    running.txq.cnt ≠ 0 ∧ running.txq.cnt ≠ running.txq.cap := by decide

/-- O42, O43: each destination; both settings of DIRECT_ATOMIC; MAIN between its two steps. -/
theorem witness_send_direct :
    { running with fop := FrameRegs.pack 8 (g 1 1) }.operandFrame.idx = 1 ∧
    { running with fop := FrameRegs.pack 8 (g 2 1) }.operandFrame.idx = 2 ∧
    3 ≤ { running with fop := FrameRegs.pack 8 (g 3 1) }.operandFrame.idx ∧
    { running with env := { Env.zero with tme1 := true } }.env.tme .mb1 = true ∧ running.env.tme .mb1 = false ∧
    running.cfg.directAtomic = false ∧
    { running with cfg := { running.cfg with directAtomic := true } }.cfg.directAtomic = true ∧
    { running with op := .sendWrite .mb1 (g 1 1), turns := [.main] }.seq = .idle := by decide

/-- O43: the bypass, a full TXQ and a TXQ with room on the queued path; WRITE with the mailbox still free. -/
theorem witness_send_codes :
    running.dState = .running ∧
    { running with fop := FrameRegs.pack 8 (g 0 1) }.operandFrame.idx = 0 ∧
    { running with txq := emptyTwo, env := { Env.zero with tme0 := true } }.txq.cnt = 0 ∧
    { running with txq := fullOne }.txq.cnt = { running with txq := fullOne }.txq.cap ∧
    running.txq.cnt ≠ running.txq.cap ∧ running.txq.cnt ≠ 0 ∧
    after (step { running with
        op := .sendWrite .mb1 (g 1 1), turns := [.main], env := { Env.zero with tme1 := true } }) (fun t => t.events) =
      some [.pMbWrite .mb1 (g 1 1)] := by decide

/-- O44, O45: a queue with frames and an empty one, while running; a bound, a null and an absent callback. -/
def bound : State :=
  { running with
    dcb0 := { refs := (CallbackArray.empty 56).refs.set 0 0x1000, len := 2 }
    op := .dispCall .fifo0 (g 0 1) false
    turns := [.main] }
theorem witness_dispatch :
    running.dState = .running ∧ (running.queue (rxQueueOf .fifo1)).cnt ≠ 0 ∧
    ({ running with rxq1 := emptyTwo }.queue (rxQueueOf .fifo1)).cnt = 0 ∧
    bound.seq = .idle ∧ (g 0 1).idx < (bound.dcb .fifo0).len ∧
    (bound.dcb .fifo0).refs[(g 0 1).idx]? = some 0x1000 ∧
    (bound.dcb .fifo0).refs[(g 1 1).idx]?.getD 0 = 0 ∧
    (bound.dcb .fifo0).len ≤ (g 2 1).idx := by decide
theorem witness_dispatch_invariant : (running.queue (rxQueueOf .fifo1)).Inv := twoOfThree_inv

/-- O46: DISP between its dispatches. -/
theorem witness_disp :
    { bound with op := .dispCall .fifo0 (g 0 1) true }.seq = .idle ∧
    { bound with op := .dispSecond true, rxq1 := emptyTwo }.rxq1.cnt = 0 ∧
    { bound with op := .dispSecond true }.rxq1.cnt ≠ 0 ∧
    { bound with op := .dispCall .fifo1 (g 0 1) true }.turns = [.main] := by decide

/-- O48: an open gate with a message pending, the queue with room and full. -/
theorem witness_receive :
    running.irqEn.getLsbD FifoId.fifo1.code = true ∧ Memory.wf (running.queue .rxq1).store ∧
    { running with env := { Env.zero with fifo1 := ⟨true, true, true, 0, 0, 0, 0⟩ } }.env.fifo1.fmp = true ∧
    running.rxq1.cnt ≠ running.rxq1.cap ∧ { running with rxq1 := fullOne }.rxq1.cnt = { running with rxq1 := fullOne }.rxq1.cap := by
  decide

/-- O49: both identifier kinds; the first and the last payload byte of each word. -/
theorem witness_receive_words :
    (0xD5E6F07E#32).getLsbD 2 = true ∧ (0xFFFFFFF8#32).getLsbD 2 = false ∧ 3 < 4 ∧ 4 ≤ 4 ∧ 7 < 8 := by decide

/-- O50: completion with mailbox 2 free and named, and named wrongly. -/
theorem witness_transmit :
    running.irqEn.getLsbD 2 = true ∧
    { running with env := { Env.zero with tme2 := true, code := 2, txc := true } }.env.tme .mb2 = true ∧
    { running with env := { Env.zero with tme2 := true, code := 3, txc := true } }.env.code = 3 ∧
    running.txq.cnt ≠ 0 ∧ { running with txq := emptyTwo }.txq.cnt = 0 := by decide

/-- O51: a closed gate; an open one with nothing to do. -/
theorem witness_gated :
    base.irqEn.getLsbD 2 = false ∧ running.irqEn.getLsbD 2 = true ∧ running.env.txc = false ∧
    (running.env.rx .fifo0).fmp = false := by decide

/-- O54, O57: an idle state and a running one with a step. -/
theorem witness_invariant : base.Inv ∧ running.Inv ∧ after (step running) (fun t => t.dState) = some .running :=
  ⟨base_inv, running_inv, by decide⟩

/-- O55: a queued frame, not stranded. -/
theorem witness_not_stranded : running.NotStranded ∧ running.txq.cnt ≠ 0 :=
  ⟨fun _ _ => .inl rfl, by decide⟩

/-- O56: atomic direct sends and an honest code with a free mailbox. -/
theorem witness_no_fault :
    { running with cfg := { running.cfg with directAtomic := true } }.cfg.directAtomic = true ∧
    ({ Env.zero with tme2 := true, code := 2 } : Env).anyFree = true ∧
    ({ Env.zero with tme2 := true, code := 2 } : Env).codeNamesFree :=
  ⟨rfl, rfl, fun _ h => by simp [Env.freeMailbox] at h⟩

/-- O58: each handler and the reserved code. -/
theorem witness_handlers :
    ∀ v : BitVec 2, after (step { running with turns := [.strobe v] }) (fun t => t.dState) = some .running := by decide

/-- O59: the instruction clause; a host write, a RESOLVE and a BEGIN that change what each may change; a later step. -/
theorem witness_writers :
    after (exec .tcheck base) (fun t => t.timing.ok) = some false ∧
    after (step (hosted base (.write 0x10 5))) (fun t => (t.a[0], base.a[0])) = some (5, 0) ∧
    after (step (hosted base (.write 0x07 5))) (fun t => (t.fop.w3, base.fop.w3)) = some (5, 0) ∧
    after (step (hosted (withArgs base [500000, 1000]) (.write 0 0x20000000))) (fun t => (t.timing.ok, base.timing.ok)) =
      some (true, false) ∧
    after (step (hosted { v11 with cb0 := { base.cb0 with len := 1 } } (.write 0 0x40000000)))
      (fun t => (t.dcb0.len, v11.dcb0.len)) = some (1, 0) ∧
    after (step bound) (fun t => t.op) = some .idle := by decide

/-- The bank of V40, then FSTDMASK issued again. -/
def masked : State :=
  filterCommand .fifo0 true (Slot.of 0xFFF82460FE080200#64 false false [0x1000, 0x2000]) base

theorem masked_inv : masked.Inv := filterCommand_inv base_inv rfl (by decide)

/-- O60: a standard mask slot in use, the invariant, and a step that adds a second one. -/
theorem witness_mask_slot :
    (hosted masked (.write 0 0x30000000)).Inv ∧ (hosted masked (.write 0 0x30000000)).cfg.filterLayout = {} ∧
    (hosted masked (.write 0 0x30000000)).bank.count = 1 ∧
    (hosted masked (.write 0 0x30000000)).bank.mode.getLsbD 0 = false ∧
    (∀ i, i < (hosted masked (.write 0 0x30000000)).bank.count.toNat →
      (hosted masked (.write 0 0x30000000)).bank.maskContained i) ∧
    after (step (hosted masked (.write 0 0x30000000))) (fun t => t.bank.count) = some 2 := by
  refine ⟨Same.inv (s := masked) (by simp [Same, hosted, State.queue, State.cb, State.dcb]) masked_inv, rfl, rfl, rfl, ?_,
    by decide⟩
  intro i hi
  obtain rfl : i = 0 := Nat.lt_one_iff.1 hi
  rintro - w (rfl | rfl) <;> decide

end Tests
end Machine
end Sys2Proof
end

section
/-!
PROOFS. The registers that few instructions write (10_state.md R22, R23, R28, R35, R38) and the parameters: the operations
and the steps that leave them.
-/

namespace Sys2Proof
namespace Machine

/-- A0 .. A11, FOP, T_OK, the driver's callback copies and the filter bank, with the parameters. -/
structure OwnedRegs where
  cfg  : Config
  a    : Vector Word 12
  fop  : FrameRegs
  tOk  : Bool
  dcb0 : CallbackArray
  dcb1 : CallbackArray
  bank : FilterBank

def State.owned (s : State) : OwnedRegs :=
  { cfg := s.cfg, a := s.a, fop := s.fop, tOk := s.timing.ok, dcb0 := s.dcb0, dcb1 := s.dcb1, bank := s.bank }

/-! ### The shared operations leave them -/

@[simp] theorem finish_owned (s : State) (ok fv : Bool) (r : BitVec 64) : (s.finish ok fv r).owned = s.owned := rfl
@[simp] theorem refuse_owned (s : State) (w : RefusedBecause) : (s.refuse w).owned = s.owned := rfl
@[simp] theorem illegal_owned (s : State) : s.illegal.owned = s.owned := rfl
@[simp] theorem emit_owned (s : State) (e : Event) : (s.emit e).owned = s.owned := rfl
@[simp] theorem setQueue_owned (s : State) (id : QueueId) (q : Queue) : (s.setQueue id q).owned = s.owned := by
  cases id <;> rfl
@[simp] theorem emitAll_owned (s : State) (es : List Event) : (s.emitAll es).owned = s.owned := by
  simp [State.owned]
@[simp] theorem sendCode_owned (s : State) (c : BitVec 64) : (s.sendCode c).owned = s.owned := rfl
@[simp] theorem dispatched_owned (s : State) (ok : Bool) : (s.dispatched ok).owned = s.owned := rfl
@[simp] theorem available_owned (q : QueueId) (s : State) : (available q s).owned = s.owned := rfl

@[simp] theorem setCb_owned (s : State) (k : FifoId) (c : CallbackArray) : (s.setCb k c).owned = s.owned := by
  cases k <;> rfl

theorem removeToFres_owned (q : QueueId) (s : State) : (removeToFres q s).owned = s.owned := by
  unfold removeToFres
  split
  · rfl
  · exact setQueue_owned s q _

theorem sendQueued_owned (f : Frame) (s : State) : (sendQueued f s).owned = s.owned := by
  unfold sendQueued
  split
  · rfl
  · split <;> rfl

theorem dispatchPop_owned {k : FifoId} {combined : Bool} {onEmpty : State → State} {s : State}
    (h : (onEmpty s).owned = s.owned) : (dispatchPop k combined onEmpty s).owned = s.owned := by
  unfold dispatchPop
  split
  · exact h
  · exact setQueue_owned s _ _

theorem invoke_owned (s : State) (k : FifoId) (f : Frame) : (s.invoke k f).owned = s.owned := by
  unfold State.invoke
  split <;> rfl

theorem dispatchCall_owned (k : FifoId) (f : Frame) (combined : Bool) (s : State) :
    (dispatchCall k f combined s).owned = s.owned := by
  unfold dispatchCall
  split <;> exact invoke_owned s _ f

theorem receiveFrame_owned (k : FifoId) (s : State) : (receiveFrame k s).owned = s.owned := setQueue_owned s _ _

theorem receiveHandler_owned (k : FifoId) (s : State) : (receiveHandler k s).owned = s.owned := by
  have h1 : (if (s.env.rx k).fmp then receiveFrame k s else s).owned = s.owned := by
    split
    · exact receiveFrame_owned k s
    · rfl
  unfold receiveHandler
  simp only
  split <;> split <;> exact h1

theorem timingSet_ok (t : Timing) (v : Nat) (f : TField) : (t.set v f).ok = t.ok := by cases f <;> rfl

/-! ### Outcomes that leave them -/

/-- Whatever state the outcome holds has the owned registers of `s`. -/
def KeepsOwned (s : State) (r : Result) : Prop := ∀ t, r = .next t → t.owned = s.owned

theorem keepsOwned_next {s t : State} (h : t.owned = s.owned) : KeepsOwned s (.next t) := by
  rintro _ ⟨⟩
  exact h

theorem keepsOwned_fault (s : State) (f : Fault) : KeepsOwned s (.fault f) := by
  rintro t ⟨⟩

theorem keepsOwned_refuse (s : State) (w : RefusedBecause) : KeepsOwned s (.next (s.refuse w)) := keepsOwned_next rfl

theorem keepsOwned_ite {s : State} {c : Prop} [Decidable c] {r r' : Result} (h : KeepsOwned s r) (h' : KeepsOwned s r') :
    KeepsOwned s (if c then r else r') := by
  split
  · exact h
  · exact h'

/-- A command that is refused or ends in `t`. -/
theorem keepsOwned_admitted {s t : State} {c : Prop} [Decidable c] {w : RefusedBecause} (h : t.owned = s.owned) :
    KeepsOwned s (if c then .next (s.refuse w) else .next t) :=
  keepsOwned_ite (keepsOwned_refuse s w) (keepsOwned_next h)

theorem execQinit_keepsOwned (q : QueueId) (n : Nat) (s : State) : KeepsOwned s (execQinit q n s) :=
  keepsOwned_ite (keepsOwned_refuse s _) (keepsOwned_admitted (setQueue_owned s q _))

theorem execQappend_keepsOwned (q : QueueId) (s : State) : KeepsOwned s (execQappend q s) := by
  refine keepsOwned_ite (keepsOwned_refuse s _) ?_
  split
  · exact keepsOwned_next rfl
  · exact keepsOwned_next (setQueue_owned s q _)

theorem execTset_keepsOwned (f : TField) (v : Nat) (s : State) : KeepsOwned s (execTset f v s) := by
  unfold execTset
  split
  · exact keepsOwned_refuse s _
  · exact keepsOwned_admitted (by simp [State.owned, timingSet_ok])

theorem execSset_keepsOwned (f : SField) (v : Nat) (s : State) : KeepsOwned s (execSset f v s) := by
  unfold execSset
  split
  · exact keepsOwned_refuse s _
  · exact keepsOwned_admitted rfl

theorem sendWriteStep_keepsOwned (m : Mailbox) (f : Frame) (s : State) : KeepsOwned s (sendWriteStep m f s) :=
  keepsOwned_ite (keepsOwned_next rfl) (keepsOwned_fault s _)

theorem sendDirect_keepsOwned (m : Mailbox) (f : Frame) (s : State) : KeepsOwned s (sendDirect m f s) :=
  keepsOwned_ite (keepsOwned_next rfl) (keepsOwned_ite (sendWriteStep_keepsOwned m f s) (keepsOwned_next rfl))

theorem execSend_keepsOwned (s : State) : KeepsOwned s (execSend s) := by
  refine keepsOwned_ite (keepsOwned_refuse s _) ?_
  split
  · exact keepsOwned_next (sendQueued_owned _ s)
  · exact sendDirect_keepsOwned _ _ s
  · exact sendDirect_keepsOwned _ _ s
  · exact keepsOwned_next rfl

theorem enterHandler_keepsOwned {bit : Nat} {body : State → Result} {s : State} (h : KeepsOwned s (body s)) :
    KeepsOwned s (enterHandler bit body s) :=
  keepsOwned_ite h (keepsOwned_next rfl)

theorem transmitHandler_keepsOwned (s : State) : KeepsOwned s (transmitHandler s) := by
  rcases transmitHandler_cases s with ⟨-, h⟩ | ⟨-, -, h⟩ | ⟨-, -, f, q, -, ⟨-, h⟩ | ⟨m, -, h⟩⟩ <;> rw [h]
  · exact keepsOwned_next rfl
  · exact keepsOwned_next rfl
  · exact keepsOwned_fault s _
  · exact keepsOwned_next (by simp)

/-- The later steps of a command in progress: BEGIN's waits, WRITE of a direct SEND, CALL and the second POP. -/
theorem continueMain_keepsOwned (s : State) : KeepsOwned s (continueMain s) := by
  unfold continueMain
  split
  · exact keepsOwned_ite (keepsOwned_next (emitAll_owned s _)) (keepsOwned_next rfl)
  · exact keepsOwned_ite (keepsOwned_next rfl) (keepsOwned_next rfl)
  · exact keepsOwned_ite (keepsOwned_next rfl) (keepsOwned_next rfl)
  · split
    · exact keepsOwned_next rfl
    · exact sendWriteStep_keepsOwned _ _ s
    · exact keepsOwned_next (dispatchCall_owned _ _ _ s)
    · exact keepsOwned_next (dispatchPop_owned rfl)

end Machine
end Sys2Proof
end

section
/-!
PROOFS. The filter bank with one more slot, and the encoding of mask filters in the default layout (43_filter_bank.md R213
to R218; log entry 20).
-/

namespace Sys2Proof
namespace Machine

/-! ### Records of the bank -/

/-- A committed slot as a record of the bank. -/
def Slot.toBank (x : Slot) (k : FifoId) : Bank :=
  { w1 := x.w1, w2 := x.w2, scale := x.scale, mode := x.mode, fifo := fifoBit k }

/-- Each encoded base of a mask-style record lies within its encoded mask, for the default layout (R37). -/
def Bank.maskContained (x : Bank) : Prop :=
  x.mode = false →
    if x.scale then (x.w1 >>> 3) &&& (x.w2 >>> 3) = x.w1 >>> 3
    else ∀ w : Word, (w = x.w1 ∨ w = x.w2) → (w.extractLsb' 5 11) &&& (w.extractLsb' 21 11) = w.extractLsb' 5 11

theorem maskContained_iff_bankAt (b : FilterBank) (i : Nat) : b.maskContained i ↔ (b.bankAt i).maskContained := Iff.rfl

/-- The bank with one more slot: its record is the slot's, every other as before. -/
theorem bankAt_add {b : FilterBank} {x : Slot} {k : FifoId} (h : b.count.toNat < 14) (i : Nat) :
    (b.add x k).bankAt i = if i = b.count.toNat then x.toBank k else b.bankAt i := by
  have hs := setBit_get b.scale b.count.toNat i x.scale h
  have hm := setBit_get b.mode b.count.toNat i x.mode h
  have hf := setBit_get b.fifo b.count.toNat i (fifoBit k) h
  by_cases hi : i = b.count.toNat
  · subst hi
    simp_all [FilterBank.bankAt, FilterBank.add, Slot.toBank]
  · simp_all [FilterBank.bankAt, FilterBank.add, Ne.symm hi]

theorem count_add {b : FilterBank} {x : Slot} {k : FifoId} (h : b.count.toNat < 14) :
    (b.add x k).count.toNat = b.count.toNat + 1 := by
  simp only [FilterBank.add]
  bv_omega

/-- A list slot has no mask to lie within. -/
theorem maskContained_of_list {x : Bank} (h : x.mode = true) : x.maskContained := by
  intro h'
  rw [h] at h'
  cases h'

/-! ### The default layout (log entry 20), read back bit by bit

In each of these proofs `simp` turns bit j of the encoding into conditions on j, and `grind` decides them. -/

/-- The identifier of a 16-bit half stands at bits 15:5. -/
theorem filterHalf_id (v : Word) (r e : Bool) : (filterHalf {} v r e).extractLsb' 5 11 = v.extractLsb' 0 11 := by
  ext j hj
  simp [filterHalf, scatter]
  grind

theorem filterHalf_high (v : Word) (r e : Bool) {j : Nat} (hj : 16 ≤ j) : (filterHalf {} v r e).getLsbD j = false := by
  simp [filterHalf, hj]

/-- The identifier of a word stands at bits 31:3. -/
theorem filterWord_id (v : Word) (e r : Bool) : filterWord {} v e r >>> 3 = (v.extractLsb' 0 29).setWidth 32 := by
  ext j hj
  simp [filterWord, scatter]
  grind

/-- Two words in a slot: F_W1 is the first, F_W2 the second. -/
theorem slotBits_words (x y : Word) :
    (slotBits [0, 32] [x, y]).extractLsb' 0 32 = x ∧ (slotBits [0, 32] [x, y]).extractLsb' 32 32 = y := by
  constructor <;> (ext j hj; simp [slotBits]; grind)

/-- Four halves in a slot: F_W1 holds the first two, F_W2 the others. -/
theorem slotBits_halves {a b c d : Word} (ha : ∀ j, 16 ≤ j → a.getLsbD j = false)
    (hb : ∀ j, 16 ≤ j → b.getLsbD j = false) (hc : ∀ j, 16 ≤ j → c.getLsbD j = false) :
    (slotBits [0, 16, 32, 48] [a, b, c, d]).extractLsb' 0 32 = b.setWidth 16 ++ a.setWidth 16 ∧
    (slotBits [0, 16, 32, 48] [a, b, c, d]).extractLsb' 32 32 = d.setWidth 16 ++ c.setWidth 16 := by
  constructor <;> (ext j hj; simp [slotBits]; grind)

/-! ### A base within its mask stays within it under the encoding -/

theorem contained_extractLsb' {b m : Word} (h : contained b m = true) (start len : Nat) :
    b.extractLsb' start len &&& m.extractLsb' start len = b.extractLsb' start len := by
  have h' : b &&& m = b := by simpa [contained] using h
  rw [← BitVec.extractLsb'_and, h']

theorem filterHalf_contained {b m : Word} (h : contained b m = true) (r e r' e' : Bool) {w : Word}
    (hw : w = (filterHalf {} m r' e').setWidth 16 ++ (filterHalf {} b r e).setWidth 16) :
    (w.extractLsb' 5 11) &&& (w.extractLsb' 21 11) = w.extractLsb' 5 11 := by
  have hb : w.extractLsb' 5 11 = b.extractLsb' 0 11 := by
    rw [← filterHalf_id b r e, hw]
    ext j hj
    simp
    grind
  have hm : w.extractLsb' 21 11 = m.extractLsb' 0 11 := by
    rw [← filterHalf_id m r' e', hw]
    ext j hj
    simp
    grind
  rw [hb, hm, contained_extractLsb' h]

theorem filterWord_contained {b m : Word} (h : contained b m = true) (e r e' r' : Bool) :
    (filterWord {} b e r >>> 3) &&& (filterWord {} m e' r' >>> 3) = filterWord {} b e r >>> 3 := by
  rw [filterWord_id, filterWord_id, ← BitVec.setWidth_and, contained_extractLsb' h]

end Machine
end Sys2Proof
end

section
/-!
PROOFS. What an instruction and what a step can write of the owned registers, said once.
-/

namespace Sys2Proof
namespace Machine

/-! ### Instructions -/

/-- The commands that may add a slot routed to FIFO k (43_filter_bank.md R216 to R219). -/
def filterCommands (k : FifoId) : List Instr := [.fstdmask k, .fstdquad k, .fextmask k, .fextdual k]

/-- What an instruction does to the owned registers: RESOLVE may write T_OK, BEGIN the callback copies, a filter command
adds one slot to a bank that is not full, whose bases lie within their masks for the default layout. -/
inductive InstrWrites : Instr → OwnedRegs → OwnedRegs → Prop
  | nothing (i : Instr) (r : OwnedRegs) : InstrWrites i r r
  | tOk (r : OwnedRegs) (b : Bool) : InstrWrites .resolve r { r with tOk := b }
  | copies (r : OwnedRegs) (c0 c1 : CallbackArray) : InstrWrites .drvBegin r { r with dcb0 := c0, dcb1 := c1 }
  | slot (i : Instr) (r : OwnedRegs) (x : Slot) (k : FifoId) (hi : i ∈ filterCommands k)
      (hroom : r.bank.count.toNat ≠ Config.nslot) (hmask : r.cfg.filterLayout = {} → (x.toBank k).maskContained) :
      InstrWrites i r { r with bank := r.bank.add x k }

theorem writes_of_keepsOwned {i : Instr} {s s' : State} {r : Result} (h : r = .next s') (hk : KeepsOwned s r) :
    InstrWrites i s.owned s'.owned := by
  rw [hk s' h]
  exact .nothing i s.owned

theorem execResolve_writes {s s' : State} (h : execResolve s = .next s') : InstrWrites .resolve s.owned s'.owned := by
  unfold execResolve at h
  split at h
  · exact writes_of_keepsOwned h (keepsOwned_refuse s _)
  · cases h
    exact .tOk s.owned _

theorem execBegin_writes {s s' : State} (h : execBegin s = .next s') : InstrWrites .drvBegin s.owned s'.owned := by
  unfold execBegin at h
  split at h
  · exact writes_of_keepsOwned h (keepsOwned_refuse s _)
  · simp only at h
    split at h
    · cases h
      exact .nothing _ s.owned
    · cases h
      exact .copies s.owned s.cb0 s.cb1

/-- A filter command commits its slot or writes nothing (R211, R212). -/
theorem filterCommand_writes {i : Instr} {k : FifoId} {argsOk : Bool} {x : Slot} {s : State}
    (hi : i ∈ filterCommands k) (hmask : argsOk = true → s.cfg.filterLayout = {} → (x.toBank k).maskContained) :
    InstrWrites i s.owned (filterCommand k argsOk x s).owned := by
  unfold filterCommand
  split
  · exact .nothing i s.owned
  · rename_i h
    obtain ⟨hroom, hargs⟩ := not_or.1 h
    rw [finish_owned, setCb_owned]
    exact .slot i s.owned x k hi hroom (hmask (by simpa using hargs))

theorem execFstdmask_writes {k : FifoId} {s s' : State} (h : execFstdmask k s = .next s') :
    InstrWrites (.fstdmask k) s.owned s'.owned := by
  cases h
  refine filterCommand_writes (by simp [filterCommands]) fun hargs hl _ => ?_
  simp only [Bool.and_eq_true] at hargs
  obtain ⟨⟨⟨⟨-, hc0⟩, hc4⟩, -⟩, -⟩ := hargs
  obtain ⟨hw1, hw2⟩ := slotBits_halves
    (a := standardIdHalf {} (s.arg 0) (s.arg 2)) (b := standardMaskHalf {} (s.arg 1) (s.arg 2))
    (c := standardIdHalf {} (s.arg 4) (s.arg 6)) (d := standardMaskHalf {} (s.arg 5) (s.arg 6))
    (fun _ => filterHalf_high _ _ _) (fun _ => filterHalf_high _ _ _) (fun _ => filterHalf_high _ _ _)
  rw [hl]
  rintro w (rfl | rfl)
  · exact filterHalf_contained hc0 _ _ _ _ hw1
  · exact filterHalf_contained hc4 _ _ _ _ hw2

theorem execFstdquad_writes {k : FifoId} {s s' : State} (h : execFstdquad k s = .next s') :
    InstrWrites (.fstdquad k) s.owned s'.owned := by
  cases h
  exact filterCommand_writes (by simp [filterCommands]) fun _ _ => maskContained_of_list rfl

theorem execFextmask_writes {k : FifoId} {s s' : State} (h : execFextmask k s = .next s') :
    InstrWrites (.fextmask k) s.owned s'.owned := by
  cases h
  refine filterCommand_writes (by simp [filterCommands]) fun hargs hl _ => ?_
  simp only [Bool.and_eq_true] at hargs
  obtain ⟨⟨-, hc⟩, -⟩ := hargs
  obtain ⟨hw1, hw2⟩ := slotBits_words
    (filterWord {} (s.arg 0) true (s.arg 2 == 1)) (filterWord {} (s.arg 1) true (s.arg 2 != 2))
  rw [hl]
  simp only [Slot.of, Slot.toBank, if_true, hw1, hw2]
  exact filterWord_contained hc _ _ _ _

theorem execFextdual_writes {k : FifoId} {s s' : State} (h : execFextdual k s = .next s') :
    InstrWrites (.fextdual k) s.owned s'.owned := by
  cases h
  exact filterCommand_writes (by simp [filterCommands]) fun _ _ => maskContained_of_list rfl

/-- A strobe of FIFO k runs H_RXk behind the gate of its own bit. -/
theorem exec_rxIsr (k : FifoId) (s : State) :
    exec (rxIsr k) s = enterHandler k.code (fun t => .next (receiveHandler k t)) s := by
  cases k <;> rfl

theorem exec_rxIsr_keepsOwned (k : FifoId) (s : State) : KeepsOwned s (exec (rxIsr k) s) := by
  rw [exec_rxIsr]
  exact enterHandler_keepsOwned (keepsOwned_next (receiveHandler_owned k s))

theorem exec_isrTx_keepsOwned (s : State) : KeepsOwned s (exec .isrTx s) :=
  enterHandler_keepsOwned (transmitHandler_keepsOwned s)

theorem exec_writes {i : Instr} {s s' : State} (h : exec i s = .next s') : InstrWrites i s.owned s'.owned := by
  cases i with
  | resolve => exact execResolve_writes h
  | drvBegin => exact execBegin_writes h
  | fstdmask k => exact execFstdmask_writes h
  | fstdquad k => exact execFstdquad_writes h
  | fextmask k => exact execFextmask_writes h
  | fextdual k => exact execFextdual_writes h
  | qinit q n => exact writes_of_keepsOwned h (execQinit_keepsOwned q n s)
  | qappend q => exact writes_of_keepsOwned h (execQappend_keepsOwned q s)
  | qremove q => exact writes_of_keepsOwned h (keepsOwned_admitted (removeToFres_owned q s))
  | qfree q => exact writes_of_keepsOwned h (keepsOwned_admitted (setQueue_owned s q _))
  | qrstpeak q => exact writes_of_keepsOwned h (keepsOwned_next (setQueue_owned s q _))
  | qcount q => exact writes_of_keepsOwned h (keepsOwned_next rfl)
  | qpeak q => exact writes_of_keepsOwned h (keepsOwned_next rfl)
  | qcap q => exact writes_of_keepsOwned h (keepsOwned_next rfl)
  | tset f v => exact writes_of_keepsOwned h (execTset_keepsOwned f v s)
  | tget f => exact writes_of_keepsOwned h (keepsOwned_next rfl)
  | tcheck => exact writes_of_keepsOwned h (keepsOwned_next rfl)
  | trate => exact writes_of_keepsOwned h (keepsOwned_admitted rfl)
  | texact => exact writes_of_keepsOwned h (keepsOwned_next rfl)
  | tppm => exact writes_of_keepsOwned h (keepsOwned_admitted rfl)
  | tsample => exact writes_of_keepsOwned h (keepsOwned_next rfl)
  | sset f v => exact writes_of_keepsOwned h (execSset_keepsOwned f v s)
  | sget f => exact writes_of_keepsOwned h (keepsOwned_next rfl)
  | fcount => exact writes_of_keepsOwned h (keepsOwned_next rfl)
  | fget what index => exact writes_of_keepsOwned h (keepsOwned_ite (keepsOwned_next rfl) (keepsOwned_refuse s _))
  | drvEnd => exact writes_of_keepsOwned h (keepsOwned_admitted rfl)
  | send => exact writes_of_keepsOwned h (execSend_keepsOwned s)
  | recv0 => exact writes_of_keepsOwned h (keepsOwned_admitted (removeToFres_owned .rxq0 s))
  | recv1 => exact writes_of_keepsOwned h (keepsOwned_admitted (removeToFres_owned .rxq1 s))
  | disp0 => exact writes_of_keepsOwned h (keepsOwned_admitted (dispatchPop_owned rfl))
  | disp1 => exact writes_of_keepsOwned h (keepsOwned_admitted (dispatchPop_owned rfl))
  | disp => exact writes_of_keepsOwned h (keepsOwned_admitted (dispatchPop_owned rfl))
  | avail0 => exact writes_of_keepsOwned h (keepsOwned_admitted rfl)
  | avail1 => exact writes_of_keepsOwned h (keepsOwned_admitted rfl)
  | dstate => exact writes_of_keepsOwned h (keepsOwned_next rfl)
  | isrRx0 => exact writes_of_keepsOwned h (exec_rxIsr_keepsOwned .fifo0 s)
  | isrRx1 => exact writes_of_keepsOwned h (exec_rxIsr_keepsOwned .fifo1 s)
  | isrTx => exact writes_of_keepsOwned h (exec_isrTx_keepsOwned s)

/-! ### Host register writes (R21) -/

theorem hostWriteReg_operand {s : State} {reg : Nat} (h : 0x04 ≤ reg ∧ reg ≤ 0x07) (w : Word) :
    s.hostWriteReg reg w = { s with fop := s.fop.set w (reg - 0x04) } := if_pos h

theorem hostWriteReg_arg {s : State} {reg : Nat} (h : 0x10 ≤ reg ∧ reg ≤ 0x1B) (w : Word) :
    s.hostWriteReg reg w = { s with a := s.a.setIfInBounds (reg - 0x10) w } := by
  rw [State.hostWriteReg, if_neg (by omega), if_pos h]

theorem hostWriteReg_ignored {s : State} {reg : Nat} (h4 : ¬ (0x04 ≤ reg ∧ reg ≤ 0x07))
    (h10 : ¬ (0x10 ≤ reg ∧ reg ≤ 0x1B)) (w : Word) : s.hostWriteReg reg w = s := by
  rw [State.hostWriteReg, if_neg h4, if_neg h10]

/-! ### What a step can write of the owned registers -/

/-- What a step, reset apart, does to the owned registers, by the host actions still to be issued: nothing, a host write
to one of A0 .. A11 or of FOP0 .. FOP3, or an issued command. -/
inductive StepWrites : List HostAction → OwnedRegs → OwnedRegs → Prop
  | nothing (host : List HostAction) (r : OwnedRegs) : StepWrites host r r
  | arg (reg : Nat) (w : Word) (hs : List HostAction) (r : OwnedRegs) (a : Vector Word 12)
      (hreg : 0x10 ≤ reg ∧ reg ≤ 0x1B) : StepWrites (.write reg w :: hs) r { r with a := a }
  | operand (reg : Nat) (w : Word) (hs : List HostAction) (r : OwnedRegs) (fop : FrameRegs)
      (hreg : 0x04 ≤ reg ∧ reg ≤ 0x07) : StepWrites (.write reg w :: hs) r { r with fop := fop }
  | command (w : Word) (hs : List HostAction) (i : Instr) (r r' : OwnedRegs) (hi : decode (.command w) = .ok i)
      (hw : InstrWrites i r r') : StepWrites (.write 0 w :: hs) r r'

theorem stepWrites_of_keepsOwned {s s' : State} {r : Result} (h : r = .next s') (hk : KeepsOwned s r) :
    StepWrites s.host s.owned s'.owned := by
  rw [hk s' h]
  exact .nothing s.host s.owned

theorem hostStep_writes {a : HostAction} {hs : List HostAction} {s s' : State} (h : hostStep a s = .next s') :
    StepWrites (a :: hs) s.owned s'.owned := by
  cases a with
  | read reg =>
    cases h
    exact .nothing _ s.owned
  | write reg w =>
    simp only [hostStep] at h
    split at h
    · next hreg =>
      subst hreg
      rcases runCommand_cases w s with ⟨_, -, hr⟩ | ⟨i, hi, hr⟩
      · rw [hr] at h
        cases h
        exact .nothing _ s.owned
      · exact .command w hs i _ _ hi (exec_writes (hr ▸ h))
    · cases h
      by_cases h4 : 0x04 ≤ reg ∧ reg ≤ 0x07
      · rw [hostWriteReg_operand h4]
        exact .operand reg w hs s.owned _ h4
      · by_cases h10 : 0x10 ≤ reg ∧ reg ≤ 0x1B
        · rw [hostWriteReg_arg h10]
          exact .arg reg w hs s.owned _ h10
        · rw [hostWriteReg_ignored h4 h10]
          exact .nothing _ s.owned

theorem mainStep_writes {s s' : State} (h : mainStep s = .next s') : StepWrites s.host s.owned s'.owned := by
  rcases mainStep_cases s with ⟨-, hm⟩ | ⟨-, -, hm⟩ | ⟨-, a, hs, hhost, hm⟩ <;> rw [hm] at h
  · exact stepWrites_of_keepsOwned h (continueMain_keepsOwned s)
  · exact stepWrites_of_keepsOwned h (keepsOwned_next rfl)
  · rw [hhost]
    exact hostStep_writes (s := { s with host := hs }) h

/-- A delivered vector code is a handler's or the reserved one (30_encoding.md R107). -/
theorem decode_vector_isr {v : BitVec 2} {i : Instr} (h : decode (.vector v) = .ok i) :
    (∃ k, i = rxIsr k) ∨ i = .isrTx := by
  simp only [decode, decodeVector] at h
  split at h <;> cases h
  · exact .inl ⟨.fifo0, rfl⟩
  · exact .inl ⟨.fifo1, rfl⟩
  · exact .inr rfl

theorem strobeStep_keepsOwned (v : BitVec 2) (s : State) : KeepsOwned s (strobeStep v s) := by
  unfold strobeStep
  split
  · exact keepsOwned_next rfl
  · next i hi =>
    rcases decode_vector_isr hi with ⟨k, rfl⟩ | rfl
    · exact exec_rxIsr_keepsOwned k s
    · exact exec_isrTx_keepsOwned s

/-- A step writes what the next host action allows, or is a reset turn. -/
theorem step_writes {s s' : State} (h : step s = .next s') :
    StepWrites s.host s.owned s'.owned ∨
      ∃ ts, s.turns = .reset :: ts ∧ s'.owned = (State.resetWith s.cfg).owned := by
  rcases step_cases s with ⟨-, hm⟩ | ⟨t, ts, ht, hm⟩ <;> rw [hm] at h
  · exact .inl (mainStep_writes h)
  · cases t with
    | main => exact .inl (mainStep_writes (s := { s with turns := ts }) h)
    | strobe v => exact .inl (stepWrites_of_keepsOwned (s := s) h (strobeStep_keepsOwned v { s with turns := ts }))
    | env m => exact .inl (stepWrites_of_keepsOwned (s := s) h (keepsOwned_next rfl))
    | reset =>
      cases h
      exact .inr ⟨ts, ht, rfl⟩

end Machine
end Sys2Proof
end

section
/-!
PROOFS. Who writes A0 .. A11, FOP, T_OK and the callback copies (R22, R23, R28, R38), and what keeps the masks of R37.
-/

namespace Sys2Proof
namespace Machine

/-! ### Who writes A, FOP, T_OK and the callback copies -/

theorem InstrWrites.cfg_eq {i : Instr} {r r' : OwnedRegs} (h : InstrWrites i r r') : r'.cfg = r.cfg := by
  cases h <;> rfl

theorem InstrWrites.a_eq {i : Instr} {r r' : OwnedRegs} (h : InstrWrites i r r') : r'.a = r.a := by
  cases h <;> rfl

theorem InstrWrites.fop_eq {i : Instr} {r r' : OwnedRegs} (h : InstrWrites i r r') : r'.fop = r.fop := by
  cases h <;> rfl

theorem InstrWrites.tOk_eq {i : Instr} {r r' : OwnedRegs} (h : InstrWrites i r r') (hi : i ≠ .resolve) :
    r'.tOk = r.tOk := by
  cases h with
  | tOk => exact absurd rfl hi
  | nothing | copies | slot => rfl

theorem InstrWrites.dcb_eq {i : Instr} {r r' : OwnedRegs} (h : InstrWrites i r r') (hi : i ≠ .drvBegin) :
    r'.dcb0 = r.dcb0 ∧ r'.dcb1 = r.dcb1 := by
  cases h with
  | copies => exact absurd rfl hi
  | nothing | tOk | slot => exact ⟨rfl, rfl⟩

theorem StepWrites.cfg_eq {host : List HostAction} {r r' : OwnedRegs} (h : StepWrites host r r') : r'.cfg = r.cfg := by
  cases h with
  | command w hs i r r' hi hw => exact hw.cfg_eq
  | nothing | arg | operand => rfl

theorem StepWrites.arg_written {host : List HostAction} {r r' : OwnedRegs} (h : StepWrites host r r') (ha : r'.a ≠ r.a) :
    ∃ reg w hs, host = .write reg w :: hs ∧ 0x10 ≤ reg ∧ reg ≤ 0x1B := by
  cases h with
  | arg reg w hs r a hreg => exact ⟨reg, w, hs, rfl, hreg⟩
  | command w hs i r r' hi hw => exact absurd hw.a_eq ha
  | nothing | operand => exact absurd rfl ha

theorem StepWrites.operand_written {host : List HostAction} {r r' : OwnedRegs} (h : StepWrites host r r')
    (hf : r'.fop ≠ r.fop) : ∃ reg w hs, host = .write reg w :: hs ∧ 0x04 ≤ reg ∧ reg ≤ 0x07 := by
  cases h with
  | operand reg w hs r fop hreg => exact ⟨reg, w, hs, rfl, hreg⟩
  | command w hs i r r' hi hw => exact absurd hw.fop_eq hf
  | nothing | arg => exact absurd rfl hf

theorem StepWrites.tOk_written {host : List HostAction} {r r' : OwnedRegs} (h : StepWrites host r r')
    (ht : r'.tOk ≠ r.tOk) : ∃ w hs, host = .write 0 w :: hs ∧ decode (.command w) = .ok .resolve := by
  cases h with
  | command w hs i r r' hi hw =>
    have hres : i = .resolve := by_contra fun hne => ht (hw.tOk_eq hne)
    exact ⟨w, hs, rfl, hres ▸ hi⟩
  | nothing | arg | operand => exact absurd rfl ht

theorem StepWrites.copies_written {host : List HostAction} {r r' : OwnedRegs} (h : StepWrites host r r')
    (hd : ¬ (r'.dcb0 = r.dcb0 ∧ r'.dcb1 = r.dcb1)) :
    ∃ w hs, host = .write 0 w :: hs ∧ decode (.command w) = .ok .drvBegin := by
  cases h with
  | command w hs i r r' hi hw =>
    have hbegin : i = .drvBegin := by_contra fun hne => hd (hw.dcb_eq hne)
    exact ⟨w, hs, rfl, hbegin ▸ hi⟩
  | nothing | arg | operand => exact absurd ⟨rfl, rfl⟩ hd

/-- Both callback copies agree exactly when each does. -/
theorem dcb_eq_iff {s t : State} : (t.dcb0 = s.dcb0 ∧ t.dcb1 = s.dcb1) ↔ ∀ k, t.dcb k = s.dcb k :=
  ⟨fun h k => by cases k; exacts [h.1, h.2], fun h => ⟨h .fifo0, h .fifo1⟩⟩

theorem step_cfg {s s' : State} (h : step s = .next s') : s'.cfg = s.cfg := by
  rcases step_writes h with hw | ⟨-, -, hr⟩
  · exact hw.cfg_eq
  · exact congrArg OwnedRegs.cfg hr

/-- Settles O59, by what an instruction and what a step can write of the owned registers. -/
theorem registersHaveNoOtherWriter : Obligations.RegistersHaveNoOtherWriter := by
  refine ⟨fun i s s' h => ?_, fun s s' => step_cfg, fun s s' hreset h => ?_⟩
  · have hw := exec_writes h
    exact ⟨hw.a_eq, hw.fop_eq, hw.cfg_eq, hw.tOk_eq, fun hi => dcb_eq_iff.1 (hw.dcb_eq hi)⟩
  · obtain hw | ⟨ts, hts, -⟩ := step_writes h
    · exact ⟨hw.arg_written, hw.operand_written, hw.tOk_written,
        fun k hk => hw.copies_written fun hd => hk (dcb_eq_iff.1 hd k)⟩
    · exact absurd hts (hreset ts)

/-! ### Mask slots through a step (R37) -/

theorem maskContained_add {b : FilterBank} {x : Slot} {k : FifoId} (hc : b.count.toNat < 14)
    (hb : ∀ i, i < b.count.toNat → b.maskContained i) (hx : (x.toBank k).maskContained) :
    ∀ i, i < (b.add x k).count.toNat → (b.add x k).maskContained i := by
  intro i hi
  rw [count_add hc] at hi
  rw [maskContained_iff_bankAt, bankAt_add hc]
  split
  · exact hx
  · exact hb i (by omega)

theorem InstrWrites.maskContained {i : Instr} {r r' : OwnedRegs} (h : InstrWrites i r r')
    (hc : r.bank.count.toNat ≤ 14) (hl : r.cfg.filterLayout = {})
    (hb : ∀ j, j < r.bank.count.toNat → r.bank.maskContained j) :
    ∀ j, j < r'.bank.count.toNat → r'.bank.maskContained j := by
  cases h with
  | slot i r x k hi hroom hmask => exact maskContained_add (lt_of_le_of_ne hc hroom) hb (hmask hl)
  | nothing | tOk | copies => exact hb

theorem StepWrites.maskContained {host : List HostAction} {r r' : OwnedRegs} (h : StepWrites host r r')
    (hc : r.bank.count.toNat ≤ 14) (hl : r.cfg.filterLayout = {})
    (hb : ∀ j, j < r.bank.count.toNat → r.bank.maskContained j) :
    ∀ j, j < r'.bank.count.toNat → r'.bank.maskContained j := by
  cases h with
  | command w hs i r r' hi hw => exact hw.maskContained hc hl hb
  | nothing | arg | operand => exact hb

/-- The empty bank of reset has no slot in use. -/
theorem resetWith_maskContained (c : Config) :
    ∀ j, j < (State.resetWith c).bank.count.toNat → (State.resetWith c).bank.maskContained j :=
  fun _ hj => absurd hj (Nat.not_lt_zero _)

/-- Settles O60: a filter command checks containment before it encodes, and no other step writes the bank but reset. -/
theorem maskSlotsContainTheirBases : Obligations.MaskSlotsContainTheirBases := by
  refine ⟨resetWith_maskContained _, fun s s' hinv hl hb h => ⟨by rw [step_cfg h, hl], ?_⟩⟩
  obtain hw | ⟨-, -, hr⟩ := step_writes h
  · exact hw.maskContained hinv.bank.count_le hl hb
  · rw [show s'.bank = (State.resetWith s.cfg).bank from congrArg OwnedRegs.bank hr]
    exact resetWith_maskContained s.cfg

end Machine
end Sys2Proof
end

section
/-!
PROOFS. Handlers with nothing to do (R47, 60_exceptions.md R292), host register accesses (R21 to R25), reset values (R60).
-/

namespace Sys2Proof
namespace Machine

/-! ### Handlers that are gated off or idle (R47, 60_exceptions.md R286, R289, R292) -/

/-- Behind its gate, a handler whose body changes nothing changes nothing. -/
theorem enterHandler_idle {bit : Nat} {body : State → Result} {s : State} (h : body s = .next s) :
    enterHandler bit body s = .next s := by
  unfold enterHandler
  rw [h, ite_self]

theorem receiveHandler_idle {k : FifoId} {s : State} (hfmp : (s.env.rx k).fmp = false)
    (hfull : (s.env.rx k).full = false) (hovr : (s.env.rx k).ovr = false) : receiveHandler k s = s := by
  simp [receiveHandler, hfmp, hfull, hovr]

theorem transmitHandler_idle {s : State} (h : s.env.txc = false) : transmitHandler s = .next s := by
  simp [transmitHandler, h]

/-- Settles O51, by the gate that every handler enters through and the bodies with no condition present. -/
theorem gatedOrIdleHandlersDoNothing : Obligations.GatedOrIdleHandlersDoNothing := by
  refine fun s => ⟨fun k hgate => ?_, enterHandler_closed, fun k hfmp hfull hovr => ?_,
    fun htxc => enterHandler_idle (transmitHandler_idle htxc)⟩
  · rw [exec_rxIsr, enterHandler_closed hgate]
  · rw [exec_rxIsr, enterHandler_idle (by rw [receiveHandler_idle hfmp hfull hovr])]

/-! ### Host reads and writes (R21 to R25) -/

/-- When MAIN is idle and its step is next, the host's next action is issued. -/
theorem step_hostAction {s : State} {a : HostAction} {hs : List HostAction} {ts : List Turn} (hbusy : s.busy = false)
    (hmain : s.mainNext ts) (hhost : s.host = a :: hs) : step s = hostStep a { s with turns := ts, host := hs } := by
  rw [step_mainNext hmain]
  rcases mainStep_cases { s with turns := ts } with ⟨hb, -⟩ | ⟨-, hnil, -⟩ | ⟨-, a', hs', hcons, hm⟩
  · cases hbusy.symm.trans hb
  · cases hhost.symm.trans hnil
  · cases hhost.symm.trans hcons
    exact hm

/-- STATUS as a number: OK, REFUSED, ILLEGAL, BUSY, FVALID from bit 0 up (R24). -/
theorem statusWord_toNat (s : State) :
    s.statusWord.toNat = s.status.ok.toNat + 2 * s.status.refused.toNat + 4 * s.status.illegal.toNat +
      8 * (s.seq != .idle).toNat + 16 * s.status.fvalid.toNat := by
  have key : ∀ ok refused illegal busy fvalid : Bool,
      (0#27 ++ BitVec.ofBool fvalid ++ BitVec.ofBool busy ++ BitVec.ofBool illegal ++ BitVec.ofBool refused ++
        BitVec.ofBool ok).toNat =
      ok.toNat + 2 * refused.toNat + 4 * illegal.toNat + 8 * busy.toNat + 16 * fvalid.toNat := by decide
  exact key ..

theorem hostReadValue_resHigh (s : State) : (s.hostReadValue 0x03).toNat = s.res.toNat / 2 ^ 32 := by
  have hval : s.hostReadValue 0x03 = s.res.extractLsb' 32 32 := rfl
  rw [hval, BitVec.extractLsb'_toNat, Nat.shiftRight_eq_div_pow]
  omega

theorem hostReadValue_arg {s : State} {reg : Nat} (h : 0x10 ≤ reg ∧ reg ≤ 0x1B) :
    s.hostReadValue reg = s.arg (reg - 0x10) := by
  rw [State.hostReadValue, if_neg (by omega), if_neg (by omega), if_neg (by omega), if_neg (by omega),
    if_neg (by omega), if_neg (by omega), if_pos h]

theorem hostReadValue_reserved {s : State} {reg : Nat} (h : (12 ≤ reg ∧ reg ≤ 15) ∨ 28 ≤ reg) :
    s.hostReadValue reg = 0 := by
  rw [State.hostReadValue, if_neg (by omega), if_neg (by omega), if_neg (by omega), if_neg (by omega),
    if_neg (by omega), if_neg (by omega), if_neg (by omega)]

/-- Settles O10, by the value a read of each register number gives. -/
theorem hostReadsReturnTheRegisters : Obligations.HostReadsReturnTheRegisters := by
  intro s reg hs ts hbusy hmain hhost
  refine ⟨_, step_hostAction hbusy hmain hhost, ?status, ?resLow, ?resHigh, ?_, ?_, ?_, ?_, ?_, ?_, ?_, ?_, ?args,
    hostReadValue_reserved⟩
  case status =>
    rintro rfl
    exact statusWord_toNat s
  case resLow =>
    rintro rfl
    exact BitVec.extractLsb'_toNat 0 32 s.res
  case resHigh =>
    rintro rfl
    exact hostReadValue_resHigh _
  case args =>
    rintro i rfl
    rw [hostReadValue_arg (by omega)]
    simp [State.arg]
  all_goals
    rintro rfl
    rfl

theorem setIfInBounds_fin (a : Vector Word 12) (i : Fin 12) (w : Word) : a.setIfInBounds i w = a.set i w := by
  ext j hj
  simp [Vector.getElem_set, Vector.getElem_setIfInBounds]

/-- Settles O11, by what a write to each register number changes. -/
theorem hostWritesChangeOnlyTheirRegister : Obligations.HostWritesChangeOnlyTheirRegister := by
  intro s reg w hs ts hbusy hmain hhost
  have hwrite : reg ≠ 0 → step s = .next (State.hostWriteReg { s with turns := ts, host := hs } reg w) := fun hreg => by
    rw [step_hostAction hbusy hmain hhost, hostStep, if_neg hreg]
  refine ⟨?_, ?_, ?_, ?_, ?args, ?ignored⟩
  case args =>
    rintro i rfl
    rw [hwrite (by omega), hostWriteReg_arg (by omega)]
    simp only [Nat.add_sub_cancel_left, setIfInBounds_fin]
  case ignored =>
    intro hreg
    rw [hwrite (by omega), hostWriteReg_ignored (by omega) (by omega)]
  all_goals
    rintro rfl
    rw [hwrite (by decide), hostWriteReg_operand (by decide)]
    rfl

/-! ### Reset values (R60) -/

/-- The parameters at power-on are consistent, whatever the clock. -/
theorem atReset_wf : Config.atReset.wf := by
  have hclk : Config.atReset.clk ≠ 0 := by
    have hlt := Config.clkLessOne.isLt
    simp only [Config.atReset]
    bv_omega
  exact ⟨hclk, by decide, by decide, by decide, by decide⟩

theorem getD_replicate_zero (n i : Nat) : (Vector.replicate n (0 : Word))[i]?.getD 0 = 0 := by
  rw [Vector.getElem?_replicate]
  split <;> rfl

/-- STATUS reads as 0 after reset, BUSY included. -/
theorem resetWith_statusWord (c : Config) : (State.resetWith c).statusWord = 0 :=
  BitVec.eq_of_toNat_eq (statusWord_toNat _)

/-- Settles O8, by the reset state's own fields. -/
theorem resetStateHasTheStatedValues : Obligations.ResetStateHasTheStatedValues := by
  refine ⟨⟨_, atReset_wf, rfl⟩, ?_⟩
  rintro c _ rfl
  refine ⟨resetWith_statusWord c, rfl, rfl, rfl, getD_replicate_zero 12, rfl, rfl, ?queues, rfl, rfl, rfl, rfl,
    fun i => ⟨getD_replicate_zero 14 i, getD_replicate_zero 14 i⟩, ?callbacks, rfl, rfl, rfl⟩
  case queues => rintro (_ | _ | _) <;> exact ⟨rfl, rfl, rfl, rfl⟩
  case callbacks =>
    have hsize : (CallbackArray.empty c.ncb).refs.length = c.ncb := List.length_replicate
    have hzero : ∀ r ∈ (CallbackArray.empty c.ncb).refs, r = 0 := fun _ => List.eq_of_mem_replicate
    rintro (_ | _) <;> exact ⟨rfl, hsize, hzero, rfl, hsize, hzero⟩

end Machine
end Sys2Proof
end

section
/-!
PROOFS. The Frame packing in four registers (30_encoding.md R104), and what a write of a command word does (R101, R125).
-/

namespace Sys2Proof
namespace Machine

/-! ### The packing of a Frame (R104) -/

/-- A bit vector placed above another adds up with it. -/
theorem toNat_append_eq_add {m n : Nat} (x : BitVec m) (y : BitVec n) :
    (x ++ y).toNat = 2 ^ n * x.toNat + y.toNat := by
  rw [BitVec.toNat_append, ← Nat.shiftLeft_add_eq_or_of_lt y.isLt, Nat.shiftLeft_eq, Nat.mul_comm]

/-- Word 0: `id` in bits 28:0, `ext` in bit 29, `rtr` in bit 30, bit 31 zero. -/
theorem pack_w0_toNat (w : Nat) (f : Frame) :
    (FrameRegs.pack w f).w0.toNat = f.id.toNat + 2 ^ 29 * f.ext.toNat + 2 ^ 30 * f.rtr.toNat := by
  simp only [FrameRegs.pack, toNat_append_eq_add, BitVec.toNat_ofBool, BitVec.toNat_ofNat]
  omega

/-- Word 1: `len` in bits 3:0 and the index from bit 8 up, which an index of at most 24 bits does not overflow. -/
theorem pack_w1_toNat {w : Nat} {f : Frame} (hw : w ≤ 24) (hidx : f.idx < 2 ^ w) :
    (FrameRegs.pack w f).w1.toNat = f.len.toNat + 2 ^ 8 * f.idx := by
  have hidx24 : f.idx < 2 ^ 24 := hidx.trans_le (Nat.pow_le_pow_right (by decide) hw)
  simp only [FrameRegs.pack, fit_of_lt hidx, BitVec.toNat_ofNat]
  omega

theorem unpack_id_toNat (w : Nat) (r : FrameRegs) : (r.unpack w).id.toNat = r.w0.toNat % 2 ^ 29 :=
  BitVec.extractLsb'_toNat 0 29 r.w0

theorem unpack_ext_toNat (w : Nat) (r : FrameRegs) : (r.unpack w).ext.toNat = r.w0.toNat / 2 ^ 29 % 2 :=
  Nat.toNat_testBit r.w0.toNat 29

theorem unpack_rtr_toNat (w : Nat) (r : FrameRegs) : (r.unpack w).rtr.toNat = r.w0.toNat / 2 ^ 30 % 2 :=
  Nat.toNat_testBit r.w0.toNat 30

theorem unpack_len_toNat (w : Nat) (r : FrameRegs) : (r.unpack w).len.toNat = r.w1.toNat % 2 ^ 4 :=
  BitVec.extractLsb'_toNat 0 4 r.w1

theorem unpack_idx (w : Nat) (r : FrameRegs) : (r.unpack w).idx = r.w1.toNat / 2 ^ 8 % 2 ^ w := rfl

/-- Two frames are equal when all seven fields are, read as numbers (00_scope.md R13). -/
theorem frame_eq_of_fields {f g : Frame} (hid : f.id.toNat = g.id.toNat) (hext : f.ext.toNat = g.ext.toNat)
    (hrtr : f.rtr.toNat = g.rtr.toNat) (hlen : f.len.toNat = g.len.toNat) (hidx : f.idx = g.idx)
    (hdata0 : f.data0 = g.data0) (hdata1 : f.data1 = g.data1) : f = g := by
  have toNat_injective : Function.Injective Bool.toNat := Function.LeftInverse.injective Bool.ofNat_toNat
  cases f
  cases g
  rw [Frame.mk.injEq]
  exact ⟨BitVec.eq_of_toNat_eq hid, toNat_injective hext, toNat_injective hrtr, BitVec.eq_of_toNat_eq hlen, hidx, hdata0,
    hdata1⟩

/-- Each field read back is the one packed: its bits of the word's number are those the packing gave it. -/
theorem unpack_pack {w : Nat} {f : Frame} (hw : w ≤ 24) (hidx : f.idx < 2 ^ w) : (FrameRegs.pack w f).unpack w = f := by
  have hid := f.id.isLt
  have hext := f.ext.toNat_lt
  have hrtr := f.rtr.toNat_lt
  have hlen := f.len.isLt
  refine frame_eq_of_fields ?id ?ext ?rtr ?len ?idx rfl rfl
  case id =>
    rw [unpack_id_toNat, pack_w0_toNat]
    omega
  case ext =>
    rw [unpack_ext_toNat, pack_w0_toNat]
    omega
  case rtr =>
    rw [unpack_rtr_toNat, pack_w0_toNat]
    omega
  case len =>
    rw [unpack_len_toNat, pack_w1_toNat hw hidx]
    omega
  case idx =>
    have hshift : (f.len.toNat + 2 ^ 8 * f.idx) / 2 ^ 8 = f.idx := by omega
    rw [unpack_idx, pack_w1_toNat hw hidx, hshift, Nat.mod_eq_of_lt hidx]

/-- Settles O52, by the value of each packed word and of each unpacked field. -/
theorem framePackingPlacesEveryField : Obligations.FramePackingPlacesEveryField :=
  ⟨fun w f hw hidx => ⟨unpack_pack hw hidx, pack_w0_toNat w f, pack_w1_toNat hw hidx, rfl, rfl⟩,
    fun w r => ⟨unpack_id_toNat w r, unpack_ext_toNat w r, unpack_rtr_toNat w r, unpack_len_toNat w r, unpack_idx w r,
      rfl, rfl⟩⟩

/-! ### Writing a command word (R101, R125) -/

theorem runCommand_of_error {w : Word} {e : DecodeError} (h : decode (.command w) = .error e) (s : State) :
    runCommand w s = .next s.illegal := by
  rcases runCommand_cases w s with ⟨_, -, hrun⟩ | ⟨_, hok, -⟩
  · exact hrun
  · cases h.symm.trans hok

theorem runCommand_of_ok {w : Word} {i : Instr} (h : decode (.command w) = .ok i) (s : State) :
    runCommand w s = exec i s := by
  rcases runCommand_cases w s with ⟨_, herr, -⟩ | ⟨_, hok, hrun⟩
  · cases h.symm.trans herr
  · cases h.symm.trans hok
    exact hrun

/-- A write to CMD, register 0, runs the word written, on the state without that host action and that turn. -/
theorem step_writeCmd {s : State} {w : Word} {hs : List HostAction} {ts : List Turn} (hbusy : s.busy = false)
    (hmain : s.mainNext ts) (hhost : s.host = .write 0 w :: hs) :
    step s = runCommand w { s with turns := ts, host := hs } := by
  rw [step_hostAction hbusy hmain hhost, hostStep, if_pos rfl]

/-- Settles O5, by the outcome of a word that does not decode. -/
theorem illegalWordChangesOnlyStatus : Obligations.IllegalWordChangesOnlyStatus := by
  intro s w e hs ts hbusy hmain hhost hdecode
  rw [step_writeCmd hbusy hmain hhost, runCommand_of_error hdecode]
  rfl

/-- Settles O6, by the outcome of a word that decodes. -/
theorem stepRunsTheDecodedCommand : Obligations.StepRunsTheDecodedCommand := by
  intro s w i hs ts hbusy hmain hhost hdecode
  rw [step_writeCmd hbusy hmain hhost, runCommand_of_ok hdecode]

end Machine
end Sys2Proof
end

section
/-!
PROOFS. The FQ commands on one queue (41_frame_queue.md R140 to R149), and the queue as the sequence of its frames (R150,
R151).
-/

namespace Sys2Proof
namespace Machine

/-! ### Ownership of the queues (R141; D6) -/

/-- While the driver owns the queues, a command behind the ownership check is refused. -/
theorem refused_of_owned {s : State} (h : s.dState = .initializing ∨ s.dState = .running) (r : Result) :
    (if !s.queuesFree then .next (s.refuse .owned) else r) = .next { s with status := Status.afterRefusal } := by
  have hfree : s.queuesFree = false := by rcases h with h | h <;> simp [State.queuesFree, h]
  rw [hfree]
  rfl

/-- Before BEGIN and after END, the ownership check lets a command through. -/
theorem admitted_of_free {s : State} (h : s.dState = .uninitialized ∨ s.dState = .stopped) (r : Result) :
    (if !s.queuesFree then .next (s.refuse .owned) else r) = r := by
  have hfree : s.queuesFree = true := by rcases h with h | h <;> simp [State.queuesFree, h]
  rw [hfree]
  rfl

/-! ### The queue as the sequence of its frames (R151) -/

@[simp] theorem contents_length (id : QueueId) (q : Queue) : (q.contents id).length = q.cnt := by
  simp [Queue.contents]

theorem contents_eq_nil {id : QueueId} {q : Queue} : q.contents id = [] ↔ q.cnt = 0 := by
  rw [← List.length_eq_zero_iff, contents_length]

/-- In a queue that is not full no occupied slot is the tail slot. -/
theorem occupied_ne_tail {q : Queue} {j : Nat} (hfull : q.cnt < q.cap) (hj : j < q.cnt) :
    (q.rd + j) % q.cap ≠ q.tail := by
  intro h
  have hmod : j % q.cap = q.cnt % q.cap := Nat.ModEq.add_left_cancel' q.rd h
  rw [Nat.mod_eq_of_lt (hj.trans hfull), Nat.mod_eq_of_lt hfull] at hmod
  exact hj.ne hmod

/-- After an append the tail slot holds the frame, every other slot what it held. -/
theorem append_slot {id : QueueId} {q q' : Queue} {f : Frame} (hwf : Memory.wf q.store) (h : q.append f = some q')
    (i : Nat) : q'.slot id i = if i = q.tail then f else q.slot id i := by
  obtain ⟨-, -, -, -, hstore, -⟩ := append_cases h
  rw [Queue.slot, hstore, memRead_memWrite _ _ _ hwf]
  split <;> rfl

/-- An append adds its frame at the end. -/
theorem append_contents {id : QueueId} {q q' : Queue} {f : Frame} (hq : q.Inv) (h : q.append f = some q') :
    q'.contents id = q.contents id ++ [f] := by
  obtain ⟨hne, hcap, hrd, hcnt, -, -⟩ := append_cases h
  have hfull : q.cnt < q.cap := lt_of_le_of_ne hq.cnt_le_cap hne
  have htail : (q.rd + q.cnt) % q.cap = q.tail := rfl
  simp only [Queue.contents, hcnt, hcap, hrd, List.range_succ, List.map_append, List.map_cons, List.map_nil,
    append_slot hq.store_wf h, htail, if_true]
  congr 1
  exact List.map_congr_left fun j hj => if_neg (occupied_ne_tail hfull (List.mem_range.1 hj))

theorem append_peak {id : QueueId} {q q' : Queue} {f : Frame} (h : q.append f = some q') :
    q'.peak = max q.peak (q'.contents id).length := by
  obtain ⟨-, -, -, hcnt, -, hpeak⟩ := append_cases h
  rw [hpeak, contents_length, hcnt]

/-- A remove yields the frame at the front and leaves the others. -/
theorem remove_contents {id : QueueId} {q q' : Queue} {f : Frame} (hq : q.Inv) (h : q.remove id = some (f, q')) :
    q.contents id = f :: q'.contents id := by
  obtain ⟨hne, hf, hcap, -, hstore, hcnt, hrd⟩ := remove_cases h
  have hle := hq.cnt_le_cap
  have hhead : (q.rd + 0) % q.cap = q.rd := Nat.mod_eq_of_lt (hq.rd_lt_cap (by omega))
  have hnext : ∀ j, (q'.rd + j) % q'.cap = (q.rd + (j + 1)) % q.cap := fun j => by
    rw [hrd, hcap, Nat.mod_add_mod, Nat.add_assoc, Nat.add_comm 1 j]
  have hslot : ∀ i, q'.slot id i = q.slot id i := fun i => by rw [Queue.slot, hstore, Queue.slot]
  have hlen : q.cnt = q'.cnt + 1 := by omega
  simp only [Queue.contents, hlen, List.range_succ_eq_map, List.map_cons, List.map_map, hhead, hf, hnext, hslot]
  rfl

theorem init_contents (id : QueueId) (n : Nat) : (Queue.init n).contents id = [] := rfl

/-- Settles O18, by what each operation makes of the sequence of frames. -/
theorem queueIsTheSequenceOfItsFrames : Obligations.QueueIsTheSequenceOfItsFrames := fun id q hq =>
  ⟨contents_length id q,
    fun _ => by rw [contents_length, append_none],
    fun _ _ h => ⟨append_inv hq h, append_contents hq h, append_peak h⟩,
    by rw [contents_eq_nil, remove_none],
    fun _ _ h =>
      have ⟨_, _, _, hpeak, _⟩ := remove_cases h
      ⟨remove_inv hq h, remove_contents hq h, hpeak⟩,
    fun n => ⟨init_inv n, init_contents id n, rfl⟩,
    resetPeak_inv hq, rfl, (contents_length id q).symm⟩

/-! ### Filling a queue (R150) -/

/-- A queue with room for the frames `fs` accepts them all, in order; its peak is the larger of the old one and the
new length. -/
theorem foldlM_append (id : QueueId) (fs : List Frame) {q : Queue} (hq : q.Inv) (hroom : q.cnt + fs.length ≤ q.cap) :
    ∃ q', fs.foldlM Queue.append q = some q' ∧ q'.cap = q.cap ∧ q'.contents id = q.contents id ++ fs ∧
      q'.peak = max q.peak (q.cnt + fs.length) := by
  induction fs generalizing q with
  | nil => exact ⟨q, rfl, rfl, (List.append_nil _).symm, (max_eq_left hq.cnt_le_peak).symm⟩
  | cons f fs ih =>
    rw [List.length_cons] at hroom
    cases happ : q.append f with
    | none =>
      have hfull := append_none.1 happ
      omega
    | some q₁ =>
      obtain ⟨-, hcap₁, -, hcnt₁, -, hpeak₁⟩ := append_cases happ
      obtain ⟨q', hfold, hcap, hcontents, hpeak⟩ := ih (append_inv hq happ) (by omega)
      refine ⟨q', ?_, hcap.trans hcap₁, ?_, ?_⟩
      · rw [List.foldlM_cons, happ]
        exact hfold
      · rw [hcontents, append_contents hq happ, List.append_assoc]
        rfl
      · rw [hpeak, hpeak₁, hcnt₁, List.length_cons]
        omega

/-- Settles O17, by filling the empty queue that QINIT leaves. -/
theorem queueAcceptsExactlyItsCapacity : Obligations.QueueAcceptsExactlyItsCapacity := by
  rintro id n fs - rfl
  obtain ⟨q, hfold, hcap, hcontents, hpeak⟩ :=
    foldlM_append id fs (init_inv fs.length) (Nat.zero_add _).le
  rw [init_contents, List.nil_append] at hcontents
  have hcnt : q.cnt = fs.length := by rw [← contents_length id, hcontents]
  refine ⟨q, hfold, ?_, hcnt, hcontents, fun f => append_none.2 (hcnt.trans hcap.symm)⟩
  rw [hpeak]
  exact (Nat.zero_max _).trans (Nat.zero_add _)

/-! ### The commands -/

/-- Settles O13, by what an append does to the registers and to each slot. -/
theorem qappendStoresAtTheTailIndex : Obligations.QappendStoresAtTheTailIndex := by
  intro q s hwf
  refine ⟨fun hown => refused_of_owned hown _, fun hfree hfull => ?_, fun hfree hroom => ?_⟩
  · refine (admitted_of_free hfree _).trans ?_
    rw [append_none.2 hfull]
    rfl
  · cases happ : (s.queue q).append s.operandFrame with
    | none => exact absurd (append_none.1 happ) hroom
    | some q' =>
      obtain ⟨-, hcap, hrd, hcnt, hstore, hpeak⟩ := append_cases happ
      refine ⟨q', ?_, hcap, hrd, hcnt, hcnt ▸ hpeak, fun i => ?_⟩
      · refine (admitted_of_free hfree _).trans ?_
        rw [happ]
        rfl
      · rw [hstore]
        exact memRead_memWrite _ i _ hwf

/-- A size that QINIT admits fits CAP when the parameters are consistent (log entry 4). -/
theorem fit_size {c : Config} {n : Nat} (hc : c.wf) (hn : n < 65536) (hmax : n ≤ c.qmax) : fit c.wIdx n = n := by
  obtain ⟨-, -, hcap, -⟩ := hc
  exact fit_of_lt (lt_of_le_of_lt (le_min (by omega) hmax) hcap)

/-- Settles O12, by the ownership check and the size check. -/
theorem qinitAndQfreeResetTheQueue : Obligations.QinitAndQfreeResetTheQueue := by
  refine fun q n s hn => ⟨fun hown => ⟨refused_of_owned hown _, refused_of_owned hown _⟩,
    fun hfree hbig => ?tooBig, fun hfree hsize => ?sized, fun hc hsize => fit_size hc hn hsize,
    fun hfree => admitted_of_free hfree _⟩
  case tooBig =>
    refine (admitted_of_free hfree _).trans ?_
    rw [if_pos hbig]
    rfl
  case sized =>
    refine (admitted_of_free hfree _).trans ?_
    rw [if_neg (Nat.not_lt.2 hsize)]
    rfl

/-- A remove from a queue that is not empty, written out (R149). -/
theorem remove_of_cnt_ne_zero {id : QueueId} {q : Queue} (h : q.cnt ≠ 0) :
    q.remove id = some (q.slot id q.rd, { q with rd := (q.rd + 1) % q.cap, cnt := q.cnt - 1 }) := if_neg h

theorem slot_of_memRead {id : QueueId} {q : Queue} {i : Nat} {f : Frame} (h : memRead q.store i = some f) :
    q.slot id i = f := by
  rw [Queue.slot, h]
  rfl

/-- Settles O14, with the frame of slot RD as the one yielded. -/
theorem qremoveYieldsTheFrameAtTheHead : Obligations.QremoveYieldsTheFrameAtTheHead := by
  refine fun q s => ⟨fun hown => refused_of_owned hown _, fun hfree hempty => ?_, fun hfree hne =>
    ⟨(s.queue q).slot q (s.queue q).rd, fun _ hg => slot_of_memRead hg, ?_⟩⟩
  · refine (admitted_of_free hfree _).trans ?_
    rw [removeToFres, remove_none.2 hempty]
    rfl
  · refine (admitted_of_free hfree _).trans ?_
    rw [removeToFres, remove_of_cnt_ne_zero hne]
    rfl

/-- Settles O16: each of the three ends with its field in RES. -/
theorem queueReadsReturnTheFields : Obligations.QueueReadsReturnTheFields := fun _ _ => ⟨rfl, rfl, rfl⟩

end Machine
end Sys2Proof
end

section
/-!
PROOFS. What an instruction and what a step can make of a queue, and who lowers a PEAK (41_frame_queue.md R145).
-/

namespace Sys2Proof
namespace Machine

/-! ### What an outcome's state satisfies -/

/-- Whatever state the outcome holds satisfies `P`. -/
def Answers (P : State → Prop) (r : Result) : Prop := ∀ t, r = .next t → P t

theorem answers_next {P : State → Prop} {t : State} (h : P t) : Answers P (.next t) := by
  rintro _ ⟨⟩
  exact h

theorem answers_fault (P : State → Prop) (f : Fault) : Answers P (.fault f) := by
  rintro t ⟨⟩

theorem answers_ite {P : State → Prop} {c : Prop} [Decidable c] {r r' : Result} (h : Answers P r) (h' : Answers P r') :
    Answers P (if c then r else r') := by
  split
  · exact h
  · exact h'

/-! ### Queues that are only appended to and removed from -/

/-- A queue after at most one append (R140) or remove (R149). -/
inductive Queue.Used (id : QueueId) : Queue → Queue → Prop
  | same (q : Queue) : Queue.Used id q q
  | append {q q' : Queue} {f : Frame} (h : q.append f = some q') : Queue.Used id q q'
  | remove {q q' : Queue} {f : Frame} (h : q.remove id = some (f, q')) : Queue.Used id q q'

theorem Queue.Used.peak_le {id : QueueId} {q q' : Queue} (h : Queue.Used id q q') : q.peak ≤ q'.peak := by
  cases h with
  | same => exact Nat.le_refl _
  | append h =>
    obtain ⟨-, -, -, -, -, hpeak⟩ := append_cases h
    exact hpeak ▸ Nat.le_max_left _ _
  | remove h =>
    obtain ⟨-, -, -, hpeak, -⟩ := remove_cases h
    exact hpeak.ge

/-- From `s` to `t` each queue sees at most one append or remove. -/
def UsesQueues (s t : State) : Prop := ∀ id, Queue.Used id (s.queue id) (t.queue id)

theorem usesQueues_of_eq {s t : State} (h : ∀ id, t.queue id = s.queue id) : UsesQueues s t := by
  intro id
  rw [h id]
  exact .same _

theorem usesQueues_setQueue {s : State} {id : QueueId} {q : Queue} (h : Queue.Used id (s.queue id) q) :
    UsesQueues s (s.setQueue id q) := by
  intro id'
  rw [setQueue_queue]
  split
  · next heq => exact heq ▸ h
  · exact .same _

theorem answers_sameQueues {s t : State} (h : ∀ id, t.queue id = s.queue id) : Answers (UsesQueues s) (.next t) :=
  answers_next (usesQueues_of_eq h)

theorem answers_refuse (s : State) (w : RefusedBecause) : Answers (UsesQueues s) (.next (s.refuse w)) :=
  answers_sameQueues fun _ => rfl

/-- A command that is refused or ends in `t`. -/
theorem answers_admitted {s t : State} {c : Prop} [Decidable c] {w : RefusedBecause} (h : UsesQueues s t) :
    Answers (UsesQueues s) (if c then .next (s.refuse w) else .next t) :=
  answers_ite (answers_refuse s w) (answers_next h)

theorem removeToFres_usesQueues (q : QueueId) (s : State) : UsesQueues s (removeToFres q s) := by
  unfold removeToFres
  split
  · exact usesQueues_of_eq fun _ => rfl
  · next h => exact usesQueues_setQueue (.remove h)

theorem sendQueued_usesQueues (f : Frame) (s : State) : UsesQueues s (sendQueued f s) := by
  unfold sendQueued
  split
  · exact usesQueues_of_eq fun _ => rfl
  · split
    · next h => exact usesQueues_setQueue (id := .txq) (.append h)
    · exact usesQueues_of_eq fun _ => rfl

theorem dispatchPop_usesQueues {k : FifoId} {combined : Bool} {onEmpty : State → State} {s : State}
    (h : UsesQueues s (onEmpty s)) : UsesQueues s (dispatchPop k combined onEmpty s) := by
  unfold dispatchPop
  split
  · exact h
  · next hr => exact usesQueues_setQueue (.remove hr)

theorem invoke_queue (s : State) (k : FifoId) (f : Frame) (id : QueueId) : (s.invoke k f).queue id = s.queue id := by
  unfold State.invoke
  split <;> rfl

theorem dispatchCall_queue (k : FifoId) (f : Frame) (combined : Bool) (s : State) (id : QueueId) :
    (dispatchCall k f combined s).queue id = s.queue id := by
  unfold dispatchCall
  split <;> exact invoke_queue s _ f id

theorem receiveFrame_usesQueues (k : FifoId) (s : State) : UsesQueues s (receiveFrame k s) := by
  refine usesQueues_setQueue (id := rxQueueOf k) ?_
  generalize decodeRx _ _ _ _ _ _ = f
  cases h : (s.queue (rxQueueOf k)).append f with
  | none => exact .same _
  | some q => exact .append h

theorem receiveHandler_usesQueues (k : FifoId) (s : State) : UsesQueues s (receiveHandler k s) := by
  have h1 : UsesQueues s (if (s.env.rx k).fmp then receiveFrame k s else s) := by
    split
    · exact receiveFrame_usesQueues k s
    · exact usesQueues_of_eq fun _ => rfl
  unfold receiveHandler
  simp only
  split <;> split <;> exact h1

theorem filterCommand_queue (k : FifoId) (argsOk : Bool) (x : Slot) (s : State) (id : QueueId) :
    (filterCommand k argsOk x s).queue id = s.queue id := by
  unfold filterCommand
  split
  · rfl
  · exact setCb_queue _ k _ id

theorem execQappend_usesQueues (q : QueueId) (s : State) : Answers (UsesQueues s) (execQappend q s) := by
  refine answers_ite (answers_refuse s _) ?_
  split
  · exact answers_sameQueues fun _ => rfl
  · next h => exact answers_next (usesQueues_setQueue (.append h))

theorem execResolve_usesQueues (s : State) : Answers (UsesQueues s) (execResolve s) := by
  unfold execResolve
  split
  · exact answers_refuse s _
  · exact answers_sameQueues (finish_queue _ _ _ _)

theorem execTset_usesQueues (f : TField) (v : Nat) (s : State) : Answers (UsesQueues s) (execTset f v s) := by
  unfold execTset
  split
  · exact answers_refuse s _
  · exact answers_admitted (usesQueues_of_eq fun _ => rfl)

theorem execSset_usesQueues (f : SField) (v : Nat) (s : State) : Answers (UsesQueues s) (execSset f v s) := by
  unfold execSset
  split
  · exact answers_refuse s _
  · exact answers_admitted (usesQueues_of_eq fun _ => rfl)

theorem sendWriteStep_usesQueues (m : Mailbox) (f : Frame) (s : State) :
    Answers (UsesQueues s) (sendWriteStep m f s) :=
  answers_ite (answers_sameQueues fun _ => rfl) (answers_fault _ _)

theorem sendDirect_usesQueues (m : Mailbox) (f : Frame) (s : State) : Answers (UsesQueues s) (sendDirect m f s) :=
  answers_ite (answers_sameQueues fun _ => rfl)
    (answers_ite (sendWriteStep_usesQueues m f s) (answers_sameQueues fun _ => rfl))

theorem execSend_usesQueues (s : State) : Answers (UsesQueues s) (execSend s) := by
  refine answers_ite (answers_refuse s _) ?_
  split
  · exact answers_next (sendQueued_usesQueues _ s)
  · exact sendDirect_usesQueues _ _ s
  · exact sendDirect_usesQueues _ _ s
  · exact answers_sameQueues fun _ => rfl

theorem enterHandler_usesQueues {bit : Nat} {body : State → Result} {s : State} (h : Answers (UsesQueues s) (body s)) :
    Answers (UsesQueues s) (enterHandler bit body s) :=
  answers_ite h (answers_sameQueues fun _ => rfl)

theorem transmitHandler_usesQueues (s : State) : Answers (UsesQueues s) (transmitHandler s) := by
  rcases transmitHandler_cases s with ⟨-, h⟩ | ⟨-, -, h⟩ | ⟨-, -, f, q, hr, ⟨-, h⟩ | ⟨m, -, h⟩⟩ <;> rw [h]
  · exact answers_sameQueues fun _ => rfl
  · exact answers_sameQueues fun _ => rfl
  · exact answers_fault _ _
  · exact answers_next (usesQueues_setQueue (id := .txq) (.remove hr))

theorem exec_rxIsr_usesQueues (k : FifoId) (s : State) : Answers (UsesQueues s) (exec (rxIsr k) s) := by
  rw [exec_rxIsr]
  exact enterHandler_usesQueues (answers_next (receiveHandler_usesQueues k s))

theorem exec_isrTx_usesQueues (s : State) : Answers (UsesQueues s) (exec .isrTx s) :=
  enterHandler_usesQueues (transmitHandler_usesQueues s)

/-- The later steps of a command in progress: only the second POP of DISP touches a queue. -/
theorem continueMain_usesQueues (s : State) : Answers (UsesQueues s) (continueMain s) := by
  unfold continueMain
  split
  · exact answers_ite (answers_sameQueues (emitAll_queue s _)) (answers_sameQueues fun _ => rfl)
  · exact answers_ite (answers_sameQueues fun _ => rfl) (answers_sameQueues fun _ => rfl)
  · exact answers_ite (answers_sameQueues fun _ => rfl) (answers_sameQueues fun _ => rfl)
  · split
    · exact answers_sameQueues fun _ => rfl
    · exact sendWriteStep_usesQueues _ _ s
    · exact answers_sameQueues (dispatchCall_queue _ _ _ s)
    · exact answers_next (dispatchPop_usesQueues (usesQueues_of_eq fun _ => rfl))

/-! ### The four commands that start a queue afresh (R141, R144; 44_driver.md R242, R248) -/

/-- QINIT and QFREE of this queue, BEGIN and END. -/
def restartsQueue (q : QueueId) (i : Instr) : Prop :=
  (∃ n, i = .qinit q n) ∨ i = .qfree q ∨ i = .drvBegin ∨ i = .drvEnd

theorem execQinit_cases {q : QueueId} {n : Nat} {s s' : State} (h : execQinit q n s = .next s') :
    (∃ w, s' = s.refuse w) ∨ s' = (s.setQueue q (Queue.init (fit s.cfg.wIdx n))).finish true false 0 := by
  unfold execQinit at h
  split at h
  · cases h
    exact .inl ⟨_, rfl⟩
  · split at h <;> cases h
    · exact .inl ⟨_, rfl⟩
    · exact .inr rfl

theorem execQfree_cases {q : QueueId} {s s' : State} (h : execQfree q s = .next s') :
    (∃ w, s' = s.refuse w) ∨ s' = (s.setQueue q (Queue.init 0)).finish true false 0 := by
  unfold execQfree at h
  split at h <;> cases h
  · exact .inl ⟨_, rfl⟩
  · exact .inr rfl

theorem beginStepA_queue (s : State) (q : QueueId) : ∃ n, (beginStepA s).queue q = Queue.init n := by
  cases q <;> exact ⟨_, rfl⟩

/-- BEGIN leaves D_STATE and the queues, or starts every queue afresh. -/
theorem execBegin_cases {s s' : State} (h : execBegin s = .next s') :
    (s'.dState = s.dState ∧ ∀ q, s'.queue q = s.queue q) ∨ ∀ q, ∃ n, s'.queue q = Queue.init n := by
  unfold execBegin at h
  split at h
  · cases h
    exact .inl ⟨rfl, fun _ => rfl⟩
  · simp only at h
    split at h <;> cases h
    · exact .inl ⟨rfl, fun _ => rfl⟩
    · exact .inr (beginStepA_queue s)

/-- END leaves D_STATE and the queues, or frees every queue. -/
theorem execEnd_cases {s s' : State} (h : execEnd s = .next s') :
    (s'.dState = s.dState ∧ ∀ q, s'.queue q = s.queue q) ∨ ∀ q, ∃ n, s'.queue q = Queue.init n := by
  unfold execEnd at h
  split at h <;> cases h
  · exact .inl ⟨rfl, fun _ => rfl⟩
  · exact .inr fun q => by cases q <;> exact ⟨0, rfl⟩

/-! ### What an instruction can make of a queue -/

/-- A queue after an instruction: used, started afresh by one of the four commands, or with its PEAK reset by QRSTPEAK. -/
inductive InstrQueue (q : QueueId) : Instr → Queue → Queue → Prop
  | used {i : Instr} {a b : Queue} (h : Queue.Used q a b) : InstrQueue q i a b
  | restarted {i : Instr} (a : Queue) (n : Nat) (hi : restartsQueue q i) : InstrQueue q i a (Queue.init n)
  | peakReset (a : Queue) : InstrQueue q (.qrstpeak q) a a.resetPeak

theorem instrQueue_of_uses {i : Instr} {s s' : State} {r : Result} (h : r = .next s') (hr : Answers (UsesQueues s) r)
    (q : QueueId) : InstrQueue q i (s.queue q) (s'.queue q) := .used (hr s' h q)

/-- Setting queue `id` does to every queue what is known of `id`. -/
theorem instrQueue_setQueue {i : Instr} {s : State} {id : QueueId} {b : Queue} (h : InstrQueue id i (s.queue id) b)
    (q : QueueId) : InstrQueue q i (s.queue q) ((s.setQueue id b).queue q) := by
  rw [setQueue_queue]
  split
  · next heq => exact heq ▸ h
  · exact .used (.same _)

theorem instrQueue_restarts {i : Instr} {s s' : State} {q : QueueId} (hi : restartsQueue q i)
    (h : (s'.dState = s.dState ∧ ∀ q, s'.queue q = s.queue q) ∨ ∀ q, ∃ n, s'.queue q = Queue.init n) :
    InstrQueue q i (s.queue q) (s'.queue q) := by
  rcases h with ⟨-, hsame⟩ | hinit
  · exact .used (usesQueues_of_eq hsame q)
  · obtain ⟨n, hn⟩ := hinit q
    rw [hn]
    exact .restarted _ n hi

theorem execQinit_queue {id : QueueId} {n : Nat} {s s' : State} (h : execQinit id n s = .next s') (q : QueueId) :
    InstrQueue q (.qinit id n) (s.queue q) (s'.queue q) := by
  rcases execQinit_cases h with ⟨w, rfl⟩ | rfl
  · exact .used (.same _)
  · exact instrQueue_setQueue (.restarted _ _ (.inl ⟨n, rfl⟩)) q

theorem execQfree_queue {id : QueueId} {s s' : State} (h : execQfree id s = .next s') (q : QueueId) :
    InstrQueue q (.qfree id) (s.queue q) (s'.queue q) := by
  rcases execQfree_cases h with ⟨w, rfl⟩ | rfl
  · exact .used (.same _)
  · exact instrQueue_setQueue (.restarted _ _ (.inr (.inl rfl))) q

theorem execQrstpeak_queue {id : QueueId} {s s' : State} (h : execQrstpeak id s = .next s') (q : QueueId) :
    InstrQueue q (.qrstpeak id) (s.queue q) (s'.queue q) := by
  cases h
  exact instrQueue_setQueue (.peakReset _) q

theorem exec_queue {i : Instr} {s s' : State} (h : exec i s = .next s') (q : QueueId) :
    InstrQueue q i (s.queue q) (s'.queue q) := by
  cases i with
  | qinit id n => exact execQinit_queue h q
  | qfree id => exact execQfree_queue h q
  | qrstpeak id => exact execQrstpeak_queue h q
  | drvBegin => exact instrQueue_restarts (.inr (.inr (.inl rfl))) (execBegin_cases h)
  | drvEnd => exact instrQueue_restarts (.inr (.inr (.inr rfl))) (execEnd_cases h)
  | qappend id => exact instrQueue_of_uses h (execQappend_usesQueues id s) q
  | qremove id => exact instrQueue_of_uses h (answers_admitted (removeToFres_usesQueues id s)) q
  | recv0 => exact instrQueue_of_uses h (answers_admitted (removeToFres_usesQueues .rxq0 s)) q
  | recv1 => exact instrQueue_of_uses h (answers_admitted (removeToFres_usesQueues .rxq1 s)) q
  | send => exact instrQueue_of_uses h (execSend_usesQueues s) q
  | disp0 | disp1 | disp =>
    exact instrQueue_of_uses h (answers_admitted (dispatchPop_usesQueues (usesQueues_of_eq fun _ => rfl))) q
  | isrRx0 => exact instrQueue_of_uses h (exec_rxIsr_usesQueues .fifo0 s) q
  | isrRx1 => exact instrQueue_of_uses h (exec_rxIsr_usesQueues .fifo1 s) q
  | isrTx => exact instrQueue_of_uses h (exec_isrTx_usesQueues s) q
  | tset f v => exact instrQueue_of_uses h (execTset_usesQueues f v s) q
  | sset f v => exact instrQueue_of_uses h (execSset_usesQueues f v s) q
  | fstdmask k | fstdquad k | fextmask k | fextdual k =>
    exact instrQueue_of_uses h (answers_sameQueues (filterCommand_queue k _ _ s)) q
  | fget what index =>
    exact instrQueue_of_uses h (answers_ite (answers_sameQueues fun _ => rfl) (answers_refuse s _)) q
  | resolve => exact instrQueue_of_uses h (execResolve_usesQueues s) q
  | trate | tppm | avail0 | avail1 =>
    exact instrQueue_of_uses h (answers_admitted (usesQueues_of_eq fun _ => rfl)) q
  | qcount | qpeak | qcap | tget | tcheck | texact | tsample | sget | fcount | dstate =>
    exact instrQueue_of_uses h (answers_sameQueues fun _ => rfl) q

/-! ### What a step can make of a queue -/

/-- A queue after a step, reset apart, by the host actions still to be issued: used, or what an issued command makes of
it. -/
inductive StepQueue (q : QueueId) : List HostAction → Queue → Queue → Prop
  | used {host : List HostAction} {a b : Queue} (h : Queue.Used q a b) : StepQueue q host a b
  | command {w : Word} {hs : List HostAction} {i : Instr} {a b : Queue} (hi : decode (.command w) = .ok i)
      (h : InstrQueue q i a b) : StepQueue q (.write 0 w :: hs) a b

theorem hostWriteReg_queue (s : State) (reg : Nat) (w : Word) (q : QueueId) :
    (s.hostWriteReg reg w).queue q = s.queue q := by
  unfold State.hostWriteReg
  split
  · rfl
  · split <;> rfl

theorem hostStep_queue {a : HostAction} {hs : List HostAction} {s s' : State} (h : hostStep a s = .next s')
    (q : QueueId) : StepQueue q (a :: hs) (s.queue q) (s'.queue q) := by
  cases a with
  | read reg =>
    cases h
    exact .used (.same _)
  | write reg w =>
    simp only [hostStep] at h
    split at h
    · next hreg =>
      subst hreg
      rcases runCommand_cases w s with ⟨_, -, hr⟩ | ⟨i, hi, hr⟩ <;> rw [hr] at h
      · cases h
        exact .used (.same _)
      · exact .command hi (exec_queue h q)
    · cases h
      exact .used (usesQueues_of_eq (hostWriteReg_queue s reg w) q)

theorem mainStep_queue {s s' : State} (h : mainStep s = .next s') (q : QueueId) :
    StepQueue q s.host (s.queue q) (s'.queue q) := by
  rcases mainStep_cases s with ⟨-, hm⟩ | ⟨-, -, hm⟩ | ⟨-, a, hs, hhost, hm⟩ <;> rw [hm] at h
  · exact .used (continueMain_usesQueues s s' h q)
  · cases h
    exact .used (.same _)
  · rw [hhost]
    exact hostStep_queue (s := { s with host := hs }) h q

theorem strobeStep_usesQueues (v : BitVec 2) (s : State) : Answers (UsesQueues s) (strobeStep v s) := by
  unfold strobeStep
  split
  · exact answers_sameQueues fun _ => rfl
  · next i hi =>
    rcases decode_vector_isr hi with ⟨k, rfl⟩ | rfl
    · exact exec_rxIsr_usesQueues k s
    · exact exec_isrTx_usesQueues s

theorem step_queue {s s' : State} (hreset : ∀ ts, s.turns ≠ .reset :: ts) (h : step s = .next s') (q : QueueId) :
    StepQueue q s.host (s.queue q) (s'.queue q) := by
  rcases step_cases s with ⟨-, hm⟩ | ⟨t, ts, ht, hm⟩ <;> rw [hm] at h
  · exact mainStep_queue h q
  · cases t with
    | main => exact mainStep_queue (s := { s with turns := ts }) h q
    | strobe v => exact .used (strobeStep_usesQueues v { s with turns := ts } s' h q)
    | env m =>
      cases h
      exact .used (.same _)
    | reset => exact absurd ht (hreset ts)

/-! ### Who lowers a PEAK -/

theorem InstrQueue.peak_lowered {q : QueueId} {i : Instr} {a b : Queue} (h : InstrQueue q i a b)
    (hlow : b.peak < a.peak) : i = .qrstpeak q ∨ (restartsQueue q i ∧ b.peak = 0) := by
  cases h with
  | used h => exact absurd hlow (Nat.not_lt.2 h.peak_le)
  | restarted _ _ hi => exact .inr ⟨hi, rfl⟩
  | peakReset => exact .inl rfl

theorem StepQueue.peak_lowered {q : QueueId} {host : List HostAction} {a b : Queue} (h : StepQueue q host a b)
    (hlow : b.peak < a.peak) : ∃ w hs i, host = .write 0 w :: hs ∧ decode (.command w) = .ok i ∧
      (i = .qrstpeak q ∨ (restartsQueue q i ∧ b.peak = 0)) := by
  cases h with
  | used h => exact absurd hlow (Nat.not_lt.2 h.peak_le)
  | command hi h => exact ⟨_, _, _, rfl, hi, h.peak_lowered hlow⟩

theorem execQinit_peak {q : QueueId} {n : Nat} {s s' : State} (h : execQinit q n s = .next s')
    (hexec : s'.status.refused = false) : (s'.queue q).peak = 0 := by
  rcases execQinit_cases h with ⟨w, rfl⟩ | rfl
  · cases hexec
  · rw [finish_queue, setQueue_queue, if_pos rfl]
    rfl

theorem execQfree_peak {q : QueueId} {s s' : State} (h : execQfree q s = .next s')
    (hexec : s'.status.refused = false) : (s'.queue q).peak = 0 := by
  rcases execQfree_cases h with ⟨w, rfl⟩ | rfl
  · cases hexec
  · rw [finish_queue, setQueue_queue, if_pos rfl]
    rfl

/-- BEGIN and END, when they change D_STATE, zero every PEAK. -/
theorem peak_of_dState_changed {s s' : State} {q : QueueId} (hchg : s'.dState ≠ s.dState)
    (h : (s'.dState = s.dState ∧ ∀ q, s'.queue q = s.queue q) ∨ ∀ q, ∃ n, s'.queue q = Queue.init n) :
    (s'.queue q).peak = 0 := by
  rcases h with ⟨hsame, -⟩ | hinit
  · exact absurd hsame hchg
  · obtain ⟨n, hn⟩ := hinit q
    rw [hn]
    rfl

/-- Settles O15, by what an instruction and what a step can make of a queue. -/
theorem qrstpeakSetsPeakToTheCount : Obligations.QrstpeakSetsPeakToTheCount := by
  refine ⟨fun q s => ⟨rfl, rfl⟩, fun q s s' hreset h hlow => (step_queue hreset h q).peak_lowered hlow, ?_⟩
  rintro q i s s' h (⟨⟨n, rfl⟩ | rfl, hexec⟩ | ⟨rfl | rfl, hchg⟩)
  · exact execQinit_peak h hexec
  · exact execQfree_peak h hexec
  · exact peak_of_dState_changed hchg (execBegin_cases h)
  · exact peak_of_dState_changed hchg (execEnd_cases h)

end Machine
end Sys2Proof
end

section
/-!
PROOFS. The search as one pass over the list of candidates that keeps the first of smallest clock error
(42_bit_timing.md R172, R173).
-/

namespace Sys2Proof
namespace Machine

/-! ### The candidates in the order the search examines them -/

/-- The candidates of one TQ as pairs (TQ, prescaler), the lower prescaler first. -/
def candidatesAt (clk rate tq : Nat) : List (Nat × Nat) :=
  ([clk / (rate * tq), clk / (rate * tq) + 1].filter fun b => 1 ≤ b ∧ b ≤ 1024).map (Prod.mk tq)

/-- All candidates: TQ = 25, 24, ..., 5. -/
def candidates (clk rate : Nat) : List (Nat × Nat) := tqList.flatMap (candidatesAt clk rate)

/-- A candidate is offered with its clock error. -/
def Best.offerPair (clk rate : Nat) (b : Best) (x : Nat × Nat) : Best := b.offer (clockError clk rate x.1 x.2) x.2 x.1

/-- `x` is examined before `y`: it has the larger TQ, or the lower prescaler at one TQ. -/
def Earlier (x y : Nat × Nat) : Prop := y.1 < x.1 ∨ (x.1 = y.1 ∧ x.2 < y.2)

theorem mem_tqList {tq : Nat} : tq ∈ tqList ↔ 5 ≤ tq ∧ tq ≤ 25 := by
  simp only [tqList, List.mem_cons, List.not_mem_nil, or_false]
  omega

theorem mem_candidatesAt {clk rate t tq b : Nat} :
    (tq, b) ∈ candidatesAt clk rate t ↔
      t = tq ∧ (b = clk / (rate * t) ∨ b = clk / (rate * t) + 1) ∧ 1 ≤ b ∧ b ≤ 1024 := by
  simp only [candidatesAt, List.mem_map, List.mem_filter, List.mem_cons, List.not_mem_nil, or_false, Prod.mk.injEq,
    decide_eq_true_eq]
  constructor
  · rintro ⟨b', hb, rfl, rfl⟩
    exact ⟨rfl, hb⟩
  · rintro ⟨rfl, hb⟩
    exact ⟨b, hb, rfl, rfl⟩

theorem mem_candidates {clk rate tq b : Nat} : (tq, b) ∈ candidates clk rate ↔ isCandidate clk rate tq b := by
  simp only [candidates, List.mem_flatMap, mem_tqList, mem_candidatesAt, isCandidate]
  constructor
  · rintro ⟨t, ⟨hlo, hhi⟩, rfl, hb⟩
    exact ⟨hlo, hhi, hb⟩
  · rintro ⟨hlo, hhi, hb⟩
    exact ⟨tq, ⟨hlo, hhi⟩, rfl, hb⟩

theorem Earlier.asymm {x y : Nat × Nat} (h : Earlier x y) : ¬ Earlier y x := by
  unfold Earlier at *
  omega

theorem candidatesAt_pairwise (clk rate tq : Nat) : (candidatesAt clk rate tq).Pairwise Earlier := by
  refine List.pairwise_map.2 (List.Pairwise.filter _ ?_)
  simp [Earlier]

theorem candidates_pairwise (clk rate : Nat) : (candidates clk rate).Pairwise Earlier := by
  refine List.pairwise_flatMap.2 ⟨fun tq _ => candidatesAt_pairwise clk rate tq, ?_⟩
  have hfalls : tqList.Pairwise (· > ·) := by decide
  refine hfalls.imp fun {t t'} hlt x hx y hy => Or.inl ?_
  obtain ⟨rfl, -⟩ := mem_candidatesAt.1 hx
  obtain ⟨rfl, -⟩ := mem_candidatesAt.1 hy
  exact hlt

/-! ### The search offers each candidate with its clock error -/

/-- The lower candidate is at most the clock (R173). -/
theorem clockError_lower (clk rate tq : Nat) :
    clockError clk rate tq (clk / (rate * tq)) = clk - rate * tq * (clk / (rate * tq)) := by
  have hle : rate * tq * (clk / (rate * tq)) ≤ clk := Nat.mul_div_le clk (rate * tq)
  unfold clockError absDiff
  split <;> omega

/-- The upper candidate is above the clock (R173). -/
theorem clockError_upper {clk rate tq : Nat} (hpos : 0 < rate * tq) :
    clockError clk rate tq (clk / (rate * tq) + 1) = rate * tq * (clk / (rate * tq) + 1) - clk :=
  if_pos (Nat.lt_mul_div_succ clk hpos).le

theorem tryTq_eq_foldl {clk rate tq : Nat} (hpos : 0 < rate * tq) (b : Best) :
    b.tryTq clk rate tq = (candidatesAt clk rate tq).foldl (Best.offerPair clk rate) b := by
  simp only [Best.tryTq, candidatesAt, ← clockError_lower, ← clockError_upper hpos, Config.brpMax, List.filter_cons,
    List.filter_nil, decide_eq_true_eq, Nat.le_add_left, true_and]
  split <;> split <;> rfl

theorem search_eq_foldl {clk rate : Nat} (hrate : 1 ≤ rate) :
    search clk rate = (candidates clk rate).foldl (Best.offerPair clk rate) Best.start := by
  rw [candidates, List.foldl_flatMap]
  refine List.foldl_ext _ _ _ fun b tq htq => tryTq_eq_foldl (Nat.mul_pos hrate ?_) b
  have hlo : 5 ≤ tq := (mem_tqList.1 htq).1
  omega

/-! ### The first candidate of smallest error -/

/-- The best pair after the candidates of a list: the fallback pair after none, else the first of smallest error. -/
inductive Best.FirstMin (err : Nat × Nat → Nat) : List (Nat × Nat) → Best → Prop
  | fallback : Best.FirstMin err [] Best.start
  | found {before after : List (Nat × Nat)} {x : Nat × Nat} (hbefore : ∀ y ∈ before, err x < err y)
      (hafter : ∀ y ∈ after, err x ≤ err y) :
      Best.FirstMin err (before ++ x :: after) { err := some (err x), brp := x.2, tq := x.1 }

/-- An offer replaces the best pair when it is the first or strictly better. -/
theorem Best.FirstMin.offer {err : Nat × Nat → Nat} {l : List (Nat × Nat)} {b : Best} (h : Best.FirstMin err l b)
    (y : Nat × Nat) : Best.FirstMin err (l ++ [y]) (b.offer (err y) y.2 y.1) := by
  cases h with
  | fallback => exact .found (before := []) (after := []) nofun nofun
  | @found before after x hbefore hafter =>
    by_cases hlt : err y < err x
    · have hall : ∀ z ∈ before ++ x :: after, err y < err z := by
        simp only [List.mem_append, List.mem_cons]
        rintro z (hz | rfl | hz)
        · exact hlt.trans (hbefore z hz)
        · exact hlt
        · exact hlt.trans_le (hafter z hz)
      simp only [Best.offer, if_pos hlt]
      exact .found hall nofun
    · simp only [Best.offer, if_neg hlt, List.append_assoc, List.cons_append]
      refine .found hbefore fun z hz => ?_
      rcases List.mem_append.1 hz with hz | hz
      · exact hafter z hz
      · exact List.mem_singleton.1 hz ▸ Nat.not_lt.1 hlt

theorem foldl_offer_firstMin (err : Nat × Nat → Nat) (l : List (Nat × Nat)) :
    Best.FirstMin err l (l.foldl (fun b x => b.offer (err x) x.2 x.1) Best.start) := by
  induction l using List.reverseRecOn with
  | nil => exact .fallback
  | append_singleton l y ih =>
    rw [List.foldl_append]
    exact ih.offer y

theorem search_firstMin {clk rate : Nat} (hrate : 1 ≤ rate) :
    Best.FirstMin (fun x => clockError clk rate x.1 x.2) (candidates clk rate) (search clk rate) := by
  rw [search_eq_foldl hrate]
  exact foldl_offer_firstMin _ _

/-- The order of examination tells what stands before the first of smallest error. -/
theorem firstMin_found {err : Nat × Nat → Nat} {before after : List (Nat × Nat)} {x y : Nat × Nat}
    (hord : (before ++ x :: after).Pairwise Earlier) (hbefore : ∀ y ∈ before, err x < err y)
    (hafter : ∀ y ∈ after, err x ≤ err y) (hy : y ∈ before ++ x :: after) :
    err x ≤ err y ∧ (Earlier y x → err x < err y) := by
  obtain ⟨-, hord, -⟩ := List.pairwise_append.1 hord
  rcases List.mem_append.1 hy with hy | hy
  · exact ⟨(hbefore y hy).le, fun _ => hbefore y hy⟩
  · rcases List.mem_cons.1 hy with rfl | hy
    · exact ⟨le_rfl, fun hearly => absurd hearly hearly.asymm⟩
    · exact ⟨hafter y hy, fun hearly => absurd hearly ((List.pairwise_cons.1 hord).1 y hy).asymm⟩

/-- What the search answers, said once: the fallback pair, or a candidate with R172's two tie rules as one order. -/
theorem search_cases {clk rate : Nat} (hrate : 1 ≤ rate) :
    (search clk rate = Best.start ∧ ∀ tq b, ¬ isCandidate clk rate tq b) ∨
    (isCandidate clk rate (search clk rate).tq (search clk rate).brp ∧ ∀ tq b, isCandidate clk rate tq b →
      clockError clk rate (search clk rate).tq (search clk rate).brp ≤ clockError clk rate tq b ∧
      (Earlier (tq, b) ((search clk rate).tq, (search clk rate).brp) →
        clockError clk rate (search clk rate).tq (search clk rate).brp < clockError clk rate tq b)) := by
  have hmin := search_firstMin (clk := clk) hrate
  have hord := candidates_pairwise clk rate
  simp only [← mem_candidates]
  generalize candidates clk rate = l at hmin hord
  generalize search clk rate = best at hmin
  cases hmin with
  | fallback => exact .inl ⟨rfl, fun _ _ => List.not_mem_nil⟩
  | found hbefore hafter =>
    exact .inr ⟨by simp, fun _ _ => firstMin_found (err := fun x => clockError clk rate x.1 x.2) hord hbefore hafter⟩

/-- Settles O20, by the first minimum of the candidates in the order of examination. -/
theorem searchFindsTheSmallestClockError : Obligations.SearchFindsTheSmallestClockError := by
  intro clk rate hrate
  rcases search_cases (clk := clk) hrate with ⟨hstart, hnone⟩ | ⟨hcand, hmin⟩
  · refine ⟨fun ⟨tq, b, h⟩ => absurd h (hnone tq b), fun _ => ?_⟩
    rw [hstart]
    exact ⟨rfl, rfl⟩
  · refine ⟨fun _ => ⟨hcand, fun tq b h => ?_⟩, fun hnone => absurd ⟨_, _, hcand⟩ hnone⟩
    obtain ⟨hle, hearly⟩ := hmin tq b h
    exact ⟨hle, fun htq => hearly (.inl htq), fun htq hb => hearly (.inr ⟨htq, hb⟩)⟩

end Machine
end Sys2Proof
end

section
/-!
PROOFS. The consistency mask read flag by flag, and the configurations RESOLVE computes (42_bit_timing.md R174 to R176,
R185, R186).
-/

namespace Sys2Proof
namespace Machine

/-! ### A word of flags at distinct positions -/

/-- The flags of a list of (position, condition), ORed. -/
def flagWord : List (Nat × Bool) → BitVec 64
  | [] => 0
  | f :: fs => flagAt f.1 f.2 ||| flagWord fs

/-- The ten flags of the mask in the order of R108. -/
def consistencyFlags (e : ErrBits) (t : Timing) (rate : Word) : List (Nat × Bool) :=
  [(e.brpZero, t.brp.toNat == 0), (e.brpBig, decide (1024 < t.brp.toNat)),
   (e.ps1Zero, t.ps1.toNat == 0), (e.ps1Big, decide (16 < t.ps1.toNat)),
   (e.ps2Zero, t.ps2.toNat == 0), (e.ps2Big, decide (8 < t.ps2.toNat)),
   (e.rjwZero, t.rjw.toNat == 0), (e.rjwBig, decide (4 < t.rjw.toNat)),
   (e.rjwGtPs2, t.ps2.toNat != 0 && decide (t.ps2.toNat < t.rjw.toNat)),
   (e.ts, t.ts && (decide (125000 < rate.toNat) || t.ps1.toNat == 1))]

theorem consistencyMask_eq_flagWord (e : ErrBits) (t : Timing) (rate : Word) :
    consistencyMask e t rate = flagWord (consistencyFlags e t rate) := by
  simp [consistencyMask, consistencyFlags, flagWord, BitVec.or_assoc]

theorem positions_eq_append (e : ErrBits) (t : Timing) (rate : Word) :
    e.positions = (consistencyFlags e t rate).map Prod.fst ++ [e.tooFar] := rfl

@[simp] theorem flagAt_false (pos : Nat) : flagAt pos false = 0 := rfl
@[simp] theorem flagAt_true (pos : Nat) : flagAt pos true = 1#64 <<< pos := rfl

theorem getLsbD_flagAt (pos : Nat) (cond : Bool) (p : Nat) :
    (flagAt pos cond).getLsbD p = true ↔ p < 64 ∧ p = pos ∧ cond = true := by
  cases cond
  · simp
  · simp only [flagAt_true, BitVec.getLsbD_shiftLeft, BitVec.getLsbD_one, Bool.and_eq_true, Bool.not_eq_true',
      decide_eq_true_eq, decide_eq_false_iff_not, and_true]
    omega

/-- A bit of the word is 1 exactly where a flag with its condition stands. -/
theorem getLsbD_flagWord (fs : List (Nat × Bool)) (p : Nat) :
    (flagWord fs).getLsbD p = true ↔ p < 64 ∧ (p, true) ∈ fs := by
  induction fs with
  | nil => simp [flagWord]
  | cons f fs ih =>
    simp only [flagWord, BitVec.getLsbD_or, Bool.or_eq_true, getLsbD_flagAt, ih, List.mem_cons, Prod.ext_iff,
      @eq_comm Bool true]
    tauto

/-- At distinct positions each flag tells its own condition. -/
theorem getLsbD_flagWord_of_mem {fs : List (Nat × Bool)} (hnodup : (fs.map Prod.fst).Nodup) {f : Nat × Bool}
    (hf : f ∈ fs) (hpos : f.1 < 64) : (flagWord fs).getLsbD f.1 = f.2 := by
  rw [Bool.eq_iff_iff, getLsbD_flagWord]
  constructor
  · rintro ⟨-, hmem⟩
    exact congrArg Prod.snd (List.inj_on_of_nodup_map hnodup hf hmem rfl)
  · intro htrue
    exact ⟨hpos, htrue ▸ hf⟩

theorem getLsbD_flagWord_of_notMem {fs : List (Nat × Bool)} {p : Nat} (hp : p ∉ fs.map Prod.fst) :
    (flagWord fs).getLsbD p = false := by
  rw [Bool.eq_false_iff, ne_eq, getLsbD_flagWord]
  exact fun ⟨_, hmem⟩ => hp (List.mem_map_of_mem hmem)

/-- At consistent positions each of the ten flags tells its own condition. -/
theorem getLsbD_consistencyMask {e : ErrBits} (hnodup : e.positions.Nodup) (h64 : ∀ p ∈ e.positions, p < 64)
    (t : Timing) (rate : Word) :
    ∀ f ∈ consistencyFlags e t rate, (consistencyMask e t rate).getLsbD f.1 = f.2 := by
  rw [positions_eq_append e t rate] at hnodup h64
  intro f hf
  rw [consistencyMask_eq_flagWord]
  exact getLsbD_flagWord_of_mem hnodup.of_append_left hf (h64 _ (List.mem_append_left _ (List.mem_map_of_mem hf)))

theorem getLsbD_consistencyMask_tooFar {e : ErrBits} (hnodup : e.positions.Nodup) (t : Timing) (rate : Word) :
    (consistencyMask e t rate).getLsbD e.tooFar = false := by
  rw [positions_eq_append e t rate] at hnodup
  obtain ⟨-, -, hfar⟩ := List.nodup_append'.1 hnodup
  rw [consistencyMask_eq_flagWord]
  exact getLsbD_flagWord_of_notMem (List.disjoint_singleton.1 hfar)

theorem getLsbD_consistencyMask_of_notMem {e : ErrBits} {p : Nat} (hp : p ∉ e.positions) (t : Timing) (rate : Word) :
    (consistencyMask e t rate).getLsbD p = false := by
  rw [positions_eq_append e t rate] at hp
  rw [consistencyMask_eq_flagWord]
  exact getLsbD_flagWord_of_notMem (mt (List.mem_append_left _) hp)

/-- Settles O25, by the ten flags as a word of flags at distinct positions. -/
theorem tcheckFlagsAreTheTenConditions : Obligations.TcheckFlagsAreTheTenConditions := by
  rintro s ⟨-, ⟨hnodup, h64⟩, -⟩
  have hflag := getLsbD_consistencyMask hnodup h64 s.timing s.settings.rate
  simp only [consistencyFlags, List.forall_mem_cons] at hflag
  obtain ⟨h0, h1, h2, h3, h4, h5, h6, h7, h8, h9, -⟩ := hflag
  exact ⟨_, rfl, by simp [h0], by simp [h1], by simp [h2], by simp [h3], by simp [h4], by simp [h5], by simp [h6],
    by simp [h7], by simp [h8], by simp [h9], getLsbD_consistencyMask_tooFar hnodup _ _,
    fun p hp => getLsbD_consistencyMask_of_notMem hp _ _⟩

/-! ### The configuration RESOLVE computes (R174, R175) -/

/-- The pair of the search, the fallback included, is in range. -/
theorem search_range (clk : Nat) {rate : Nat} (hrate : 1 ≤ rate) :
    (1 ≤ (search clk rate).brp ∧ (search clk rate).brp ≤ 1024) ∧
      5 ≤ (search clk rate).tq ∧ (search clk rate).tq ≤ 25 := by
  rcases search_cases (clk := clk) hrate with ⟨hstart, -⟩ | ⟨⟨hlo, hhi, -, hbrp⟩, -⟩
  · rw [hstart]
    decide
  · exact ⟨hbrp, hlo, hhi⟩

/-- The columns of R175's table: their ranges, and the bit time they add up to. -/
theorem segments_range {tq : Nat} (hlo : 5 ≤ tq) (hhi : tq ≤ 25) :
    (2 ≤ segment1 tq ∧ segment1 tq ≤ 16) ∧ (2 ≤ segment2 tq ∧ segment2 tq ≤ 8) ∧
      1 + segment1 tq + segment2 tq = tq := by
  unfold segment1 segment2
  omega

theorem resolveTiming_rjw (clk rate tol : Nat) :
    (resolveTiming clk rate tol).rjw.toNat = min (segment2 (search clk rate).tq) 4 :=
  Nat.mod_eq_of_lt (lt_of_le_of_lt (min_le_right _ 4) (by decide))

section Resolved

variable {clk rate tol : Nat} (hrate : 1 ≤ rate)
include hrate

theorem resolveTiming_brp : (resolveTiming clk rate tol).brp.toNat = (search clk rate).brp := by
  obtain ⟨⟨-, hbrp⟩, -⟩ := search_range clk hrate
  exact Nat.mod_eq_of_lt (by omega)

theorem resolveTiming_ps1 : (resolveTiming clk rate tol).ps1.toNat = segment1 (search clk rate).tq := by
  obtain ⟨-, hlo, hhi⟩ := search_range clk hrate
  obtain ⟨⟨-, hps1⟩, -⟩ := segments_range hlo hhi
  exact Nat.mod_eq_of_lt (by omega)

theorem resolveTiming_ps2 : (resolveTiming clk rate tol).ps2.toNat = segment2 (search clk rate).tq := by
  obtain ⟨-, hlo, hhi⟩ := search_range clk hrate
  obtain ⟨-, ⟨-, hps2⟩, -⟩ := segments_range hlo hhi
  exact Nat.mod_eq_of_lt (by omega)

/-- Phase segment 1 is never 1, so that triple sampling depends on the rate alone. -/
theorem resolveTiming_ts : (resolveTiming clk rate tol).ts = decide (rate ≤ 125000) := by
  obtain ⟨-, hlo, hhi⟩ := search_range clk hrate
  obtain ⟨⟨hps1, -⟩, -⟩ := segments_range hlo hhi
  exact decide_eq_decide.2 ⟨fun h => h.1, fun h => ⟨h, hps1⟩⟩

/-- The quanta of the resolved configuration are those the search chose. -/
theorem resolveTiming_tq : (resolveTiming clk rate tol).tq = (search clk rate).tq := by
  obtain ⟨-, hlo, hhi⟩ := search_range clk hrate
  obtain ⟨-, -, hsum⟩ := segments_range hlo hhi
  rw [Timing.tq, resolveTiming_ps1 hrate, resolveTiming_ps2 hrate, hsum]

/-- Every register of the resolved configuration is in range. -/
theorem resolveTiming_range :
    (1 ≤ (resolveTiming clk rate tol).brp.toNat ∧ (resolveTiming clk rate tol).brp.toNat ≤ 1024) ∧
    (2 ≤ (resolveTiming clk rate tol).ps1.toNat ∧ (resolveTiming clk rate tol).ps1.toNat ≤ 16) ∧
    (2 ≤ (resolveTiming clk rate tol).ps2.toNat ∧ (resolveTiming clk rate tol).ps2.toNat ≤ 8) ∧
    (2 ≤ (resolveTiming clk rate tol).rjw.toNat ∧ (resolveTiming clk rate tol).rjw.toNat ≤ 4) ∧
    (resolveTiming clk rate tol).rjw.toNat ≤ (resolveTiming clk rate tol).ps2.toNat := by
  obtain ⟨hbrp, hlo, hhi⟩ := search_range clk hrate
  obtain ⟨hps1, hps2, -⟩ := segments_range hlo hhi
  rw [resolveTiming_brp hrate, resolveTiming_ps1 hrate, resolveTiming_ps2 hrate, resolveTiming_rjw]
  exact ⟨hbrp, hps1, hps2, ⟨le_min hps2.1 (by decide), min_le_right _ _⟩, min_le_left _ _⟩

end Resolved

theorem one_le_toNat_of_ne_zero {rate : Word} (h : rate ≠ 0) : 1 ≤ rate.toNat := by
  bv_omega

/-- Whatever stands in T_PS2 of a resolved configuration, only the three flags that read T_PS2 can be up. -/
theorem consistencyMask_resolved (clk tol : Nat) {rate : Word} (hrate : rate ≠ 0) (e : ErrBits) (ps2 : BitVec 8) :
    consistencyMask e { resolveTiming clk rate.toNat tol with ps2 := ps2 } rate =
      flagAt e.ps2Zero (ps2.toNat == 0) ||| flagAt e.ps2Big (decide (8 < ps2.toNat)) |||
      flagAt e.rjwGtPs2
        (ps2.toNat != 0 && decide (ps2.toNat < (resolveTiming clk rate.toNat tol).rjw.toNat)) := by
  have hrate := one_le_toNat_of_ne_zero hrate
  have hts := resolveTiming_ts (clk := clk) (tol := tol) hrate
  obtain ⟨hbrp, hps1, -, hrjw, -⟩ := resolveTiming_range (clk := clk) (tol := tol) hrate
  generalize resolveTiming clk rate.toNat tol = t at *
  have hfast : (t.ts && (decide (125000 < rate.toNat) || t.ps1.toNat == 1)) = false := by
    simp only [hts, Bool.and_eq_false_imp, Bool.or_eq_false_iff, decide_eq_true_eq, decide_eq_false_iff_not,
      beq_eq_false_iff_ne]
    omega
  have hbrpZero : (t.brp.toNat == 0) = false := beq_eq_false_iff_ne.2 (by omega)
  have hps1Zero : (t.ps1.toNat == 0) = false := beq_eq_false_iff_ne.2 (by omega)
  have hrjwZero : (t.rjw.toNat == 0) = false := beq_eq_false_iff_ne.2 (by omega)
  simp [consistencyMask, hbrpZero, hps1Zero, hrjwZero, Nat.not_lt.2 hbrp.2, Nat.not_lt.2 hps1.2, Nat.not_lt.2 hrjw.2,
    hfast]

/-- Settles O21, by the ranges of the resolved registers and the flags that read T_PS2. -/
theorem resolvedConfigurationIsConsistent : Obligations.ResolvedConfigurationIsConsistent := by
  rintro clk tol rate e t hne rfl
  have hrate := one_le_toNat_of_ne_zero hne
  obtain ⟨⟨hbrp, hbrp'⟩, ⟨hps1, hps1'⟩, ⟨hps2, hps2'⟩, ⟨hrjw, hrjw'⟩, hle⟩ :=
    resolveTiming_range (clk := clk) (tol := tol) hrate
  refine ⟨hps2, hps2', hps1, hps1', hrjw, hrjw', hle, hbrp, hbrp', ?_, ?_⟩
  · rw [resolveTiming_ts hrate, decide_eq_true_eq]
  · have hps2Zero : ((resolveTiming clk rate.toNat tol).ps2.toNat == 0) = false := beq_eq_false_iff_ne.2 (by omega)
    have hmask := consistencyMask_resolved clk tol hne e (resolveTiming clk rate.toNat tol).ps2
    rw [hps2Zero, decide_eq_false (Nat.not_lt.2 hps2'), decide_eq_false (Nat.not_lt.2 hle)] at hmask
    exact hmask.trans (by simp)

/-- Settles O26, by the flags that read T_PS2. -/
theorem zeroPhaseSegment2RaisesItsFlagAlone : Obligations.ZeroPhaseSegment2RaisesItsFlagAlone := by
  intro clk tol rate e hrate
  rw [consistencyMask_resolved clk tol hrate]
  simp

end Machine
end Sys2Proof
end

section
/-!
PROOFS. The BT commands: RESOLVE, the register access commands and the queries (42_bit_timing.md R171, R176, R180 to
R183, R190 to R193).
-/

namespace Sys2Proof
namespace Machine

/-! ### Register access (R180 to R183) -/

theorem execTset_written {f : TField} {v hi : Nat} (hlimit : timingLimit f = some hi) (hv : v ≤ hi) (s : State) :
    exec (.tset f v) s = .next ({ s with timing := s.timing.set v f }.finish true false 0) := by
  simp only [exec, execTset, hlimit, if_neg (Nat.not_lt.2 hv)]

theorem execTset_refused {f : TField} {v hi : Nat} (hlimit : timingLimit f = some hi) (hv : hi < v) (s : State) :
    exec (.tset f v) s = .next { s with status := Status.afterRefusal } := by
  simp only [exec, execTset, hlimit, if_pos hv]
  rfl

/-- Settles O22, by the limit of each timing register. -/
theorem tsetWritesOneTimingRegister : Obligations.TsetWritesOneTimingRegister := by
  refine fun v s hv => ⟨execTset_written rfl (Nat.le_of_lt_succ hv) s,
    fun hfit => ⟨execTset_written rfl hfit s, execTset_written rfl hfit s, execTset_written rfl hfit s⟩,
    ?_, fun hfit => execTset_written rfl hfit s, fun hbig => execTset_refused rfl hbig s, rfl⟩
  rintro hbig f (rfl | rfl | rfl) <;> exact execTset_refused rfl hbig s

theorem execSset_written {f : SField} {v hi : Nat} {s : State} (hlimit : settingLimit s.cfg.qmax f = some hi)
    (hv : v ≤ hi) : exec (.sset f v) s = .next ({ s with settings := s.settings.set v f }.finish true false 0) := by
  simp only [exec, execSset, hlimit, if_neg (Nat.not_lt.2 hv)]

theorem execSset_refused {f : SField} {v hi : Nat} {s : State} (hlimit : settingLimit s.cfg.qmax f = some hi)
    (hv : hi < v) : exec (.sset f v) s = .next { s with status := Status.afterRefusal } := by
  simp only [exec, execSset, hlimit, if_pos hv]
  rfl

/-- Settles O23, by the limit of each setting. -/
theorem ssetWritesOneSetting : Obligations.SsetWritesOneSetting := by
  intro v s hv
  refine ⟨fun hfit => ?size, fun hbig => ?sizeTooBig, fun hfit => execSset_written rfl hfit,
    fun hbig => execSset_refused rfl hbig, fun hfit => ⟨execSset_written rfl hfit, execSset_written rfl hfit⟩,
    fun hbig => ?flagTooBig, ?readOnly⟩
  case size =>
    have hmin : v ≤ min 65535 s.cfg.qmax := le_min (Nat.le_of_lt_succ hv) hfit
    exact ⟨execSset_written rfl hmin, execSset_written rfl hmin, execSset_written rfl hmin⟩
  case sizeTooBig =>
    have hmin : min 65535 s.cfg.qmax < v := lt_of_le_of_lt (min_le_right _ _) hbig
    rintro f (rfl | rfl | rfl) <;> exact execSset_refused rfl hmin
  case flagTooBig => rintro f (rfl | rfl) <;> exact execSset_refused rfl hbig
  case readOnly => rintro f (rfl | rfl) <;> rfl

/-- Settles O24, with the selected register as the result. -/
theorem tgetAndSgetReturnTheSelectedRegister : Obligations.TgetAndSgetReturnTheSelectedRegister := by
  refine fun s => ⟨fun f => ⟨s.timing.get f, rfl, ?_⟩, fun f => ⟨s.settings.get f, rfl, ?_⟩⟩
  · cases f <;> simp only [Timing.get, BitVec.toNat_setWidth_of_le, Nat.reduceLeDiff, BitVec.toNat_ofBool]
  · cases f <;> simp only [Settings.get, BitVec.toNat_setWidth_of_le, Nat.reduceLeDiff, BitVec.toNat_ofBool]

/-! ### RESOLVE (R171, R176) -/

theorem arg_eq_getElem (s : State) {i : Nat} (hi : i < 12) : s.arg i = s.a[i] := by
  simp [State.arg, hi]

theorem absDiff_eq_natAbs (a b : Nat) : absDiff a b = ((a : Int) - (b : Int)).natAbs := by
  unfold absDiff
  split <;> omega

theorem resBool_eq_ite (b : Bool) : resBool b = if b then 1 else 0 := by
  cases b <;> rfl

theorem exec_resolve {s : State} (hrate : s.a[0] ≠ 0) :
    exec .resolve s = .next ({ s with
      settings := { s.settings with rate := s.a[0], tol := s.a[1] }
      timing := resolveTiming s.cfg.clk.toNat s.a[0].toNat s.a[1].toNat }.finish
        (resolveTiming s.cfg.clk.toNat s.a[0].toNat s.a[1].toNat).ok false
        (resBool (resolveTiming s.cfg.clk.toNat s.a[0].toNat s.a[1].toNat).ok)) := by
  simp only [exec, execResolve, arg_eq_getElem s, Nat.ofNat_pos, Nat.one_lt_ofNat, if_neg hrate]

/-- Settles O19, by the formulas of R174 and R176. -/
theorem resolveWritesTheComputedConfiguration : Obligations.ResolveWritesTheComputedConfiguration := by
  refine fun s => ⟨fun hzero => if_pos ((arg_eq_getElem s (by decide)).trans hzero), fun hrate => ?_⟩
  rintro _ _ _ _ _ ok rfl rfl rfl rfl rfl hok
  have hclose : ok = (resolveTiming s.cfg.clk.toNat s.a[0].toNat s.a[1].toNat).ok := by
    rw [hok, ← absDiff_eq_natAbs]
    rfl
  subst hclose
  rw [exec_resolve hrate, resBool_eq_ite]
  rfl

/-! ### The queries (R190 to R193) -/

theorem wishedClock_eq_zero {s : State} : s.wishedClock = 0 ↔ s.settings.rate = 0 ∨ s.timing.brp = 0 := by
  simp [State.wishedClock, Timing.tq, ← BitVec.toNat_inj]

theorem execTppm_refused {s : State} (hzero : s.wishedClock = 0) :
    exec .tppm s = .next { s with status := Status.afterRefusal } := if_pos (wishedClock_eq_zero.1 hzero)

theorem execTppm_answered {s : State} (hpos : s.wishedClock ≠ 0) :
    exec .tppm s = .next (s.finish true false
      (BitVec.ofNat 64 (absDiff s.cfg.clk.toNat s.wishedClock * 1000000 / s.wishedClock))) :=
  if_neg (mt wishedClock_eq_zero.2 hpos)

/-- Settles O27, by the guard of each query. -/
theorem queriesReturnTheirFormulas : Obligations.QueriesReturnTheirFormulas := by
  rintro s _ _ rfl rfl
  refine ⟨fun hzero => if_pos hzero, fun hpos => if_neg hpos, ?_, execTppm_refused, fun hpos => ?_, rfl⟩
  · rintro _ rfl
    rw [← resBool_eq_ite]
    rfl
  · rw [← absDiff_eq_natAbs]
    exact execTppm_answered hpos

/-- The exact deviation of a 32-bit clock from a wished clock W ≥ 1 is below 2^52 ppm: at most 1000000 when the clock is
below W, less than 2^32 · 1000000 otherwise. -/
theorem ppm_lt {clk w : Nat} (hclk : clk < 2 ^ 32) (hw : w ≠ 0) : absDiff clk w * 1000000 / w < 2 ^ 52 := by
  have hdiff : absDiff clk w ≤ w * max clk 1 := by
    unfold absDiff
    split
    · exact (Nat.sub_le w clk).trans (Nat.le_mul_of_pos_right w (by omega))
    · exact (Nat.sub_le clk w).trans ((le_max_left clk 1).trans (Nat.le_mul_of_pos_left _ (Nat.pos_of_ne_zero hw)))
  have hquot : absDiff clk w * 1000000 / w ≤ max clk 1 * 1000000 := by
    refine Nat.div_le_of_le_mul ?_
    calc absDiff clk w * 1000000 ≤ w * max clk 1 * 1000000 := Nat.mul_le_mul_right _ hdiff
      _ = w * (max clk 1 * 1000000) := Nat.mul_assoc _ _ _
  omega

/-- The 64 bits of RES hold TPPM's exact quotient. -/
theorem execTppm_exact {s : State} (hpos : s.wishedClock ≠ 0) :
    ∃ r : BitVec 64, exec .tppm s = .next { s with status := Status.executed true false, res := r } ∧
      r.toNat = absDiff s.cfg.clk.toNat s.wishedClock * 1000000 / s.wishedClock := by
  refine ⟨_, execTppm_answered hpos, ?_⟩
  have hlt := ppm_lt s.cfg.clk.isLt hpos
  exact (BitVec.toNat_ofNat _ _).trans (Nat.mod_eq_of_lt (hlt.trans (by norm_num)))

/-- A close-enough configuration deviates by at most the tolerance (R176, R192). -/
theorem ppm_le_of_closeEnough {clk rate tol brp tq : Nat} (h : closeEnough clk rate tol brp tq = true) :
    absDiff clk (rate * tq * brp) * 1000000 / (rate * tq * brp) ≤ tol :=
  Nat.div_le_of_le_mul (of_decide_eq_true h)

theorem resolved_fields {s t : State} (hne : s.a[0] ≠ 0) (h : exec .resolve s = .next t) :
    t.cfg = s.cfg ∧ t.settings.rate = s.a[0] ∧ t.settings.tol = s.a[1] ∧
      t.timing = resolveTiming s.cfg.clk.toNat s.a[0].toNat s.a[1].toNat := by
  obtain rfl := Host.Outcome.next.inj ((exec_resolve hne).symm.trans h)
  exact ⟨finish_cfg .., by rw [finish_settings], by rw [finish_settings], finish_timing ..⟩

/-- TPPM after RESOLVE sees the W of the close-enough test. -/
theorem resolved_wishedClock {s t : State} (hne : s.a[0] ≠ 0) (h : exec .resolve s = .next t) :
    t.wishedClock =
        s.a[0].toNat * (search s.cfg.clk.toNat s.a[0].toNat).tq * (search s.cfg.clk.toNat s.a[0].toNat).brp ∧
      t.wishedClock ≠ 0 := by
  obtain ⟨-, hrate, -, htiming⟩ := resolved_fields hne h
  have hone := one_le_toNat_of_ne_zero hne
  obtain ⟨⟨hbrp, -⟩, htq, -⟩ := search_range s.cfg.clk.toNat hone
  rw [State.wishedClock, hrate, htiming, resolveTiming_tq hone, resolveTiming_brp hone]
  exact ⟨rfl, (Nat.mul_pos (Nat.mul_pos hone (by omega)) hbrp).ne'⟩

/-- Settles O28, by the close-enough test on the quanta and the prescaler that RESOLVE stored. -/
theorem closeEnoughBoundsThePpmDeviation : Obligations.CloseEnoughBoundsThePpmDeviation := by
  refine ⟨fun s t hne hexec hok => ?resolved, fun s hrate hbrp => ?exact⟩
  case resolved =>
    obtain ⟨hcfg, hrate, htol, htiming⟩ := resolved_fields hne hexec
    obtain ⟨hclock, hpos⟩ := resolved_wishedClock hne hexec
    obtain ⟨r, htppm, hr⟩ := execTppm_exact hpos
    refine ⟨r, htppm, ?_⟩
    rw [htiming] at hok
    rw [hr, hcfg, hclock, htol]
    exact ppm_le_of_closeEnough hok
  case exact =>
    have hpos : s.wishedClock ≠ 0 := mt wishedClock_eq_zero.1 (not_or.2 ⟨hrate, hbrp⟩)
    exact ⟨ppm_lt s.cfg.clk.isLt hpos, execTppm_exact hpos⟩

end Machine
end Sys2Proof
end

section
/-!
PROOFS. The filter commands: the places of filter words and callback references, the outcomes of a filter command, the
reads of the bank (43_filter_bank.md R211 to R219, R224, R225; 20_memory.md R75, R76).
-/

namespace Sys2Proof
namespace Machine

/-! ### Halves and words of the default layout (R213; log entry 20)

In the first two proofs `simp` turns bit j of both sides into conditions on j, and `grind` decides them. -/

/-- A 16-bit half from bit 15 down: identifier, remote flag, identifier kind, three zeros. -/
theorem filterHalf_eq_append (v : Word) (r e : Bool) :
    filterHalf {} v r e =
      0#16 ++ (v.extractLsb' 0 11 ++ (BitVec.ofBool r ++ (BitVec.ofBool e ++ 0#3))) := by
  ext j hj
  simp [filterHalf, scatter]
  grind

/-- A 32-bit word from bit 31 down: identifier, identifier kind, remote flag, a zero. -/
theorem filterWord_eq_append (v : Word) (e r : Bool) :
    filterWord {} v e r = v.extractLsb' 0 29 ++ (BitVec.ofBool e ++ (BitVec.ofBool r ++ 0#1)) := by
  ext j hj
  simp [filterWord, scatter]
  grind

theorem toNat_extractLsb'_zero {v : Word} {n : Nat} (h : v.toNat < 2 ^ n) : (v.extractLsb' 0 n).toNat = v.toNat := by
  rw [BitVec.extractLsb'_toNat, Nat.shiftRight_zero, Nat.mod_eq_of_lt h]

theorem filterHalf_toNat {v : Word} (hv : v.toNat ≤ 0x7FF) (r e : Bool) :
    (filterHalf {} v r e).toNat = v.toNat * 2 ^ 5 + r.toNat * 2 ^ 4 + e.toNat * 2 ^ 3 := by
  simp only [filterHalf_eq_append, toNat_append_eq_add, toNat_extractLsb'_zero (n := 11) (Nat.lt_succ_of_le hv),
    BitVec.toNat_ofBool, BitVec.toNat_ofNat]
  omega

theorem filterWord_toNat {v : Word} (hv : v.toNat ≤ 0x1FFFFFFF) (e r : Bool) :
    (filterWord {} v e r).toNat = v.toNat * 2 ^ 3 + e.toNat * 2 ^ 2 + r.toNat * 2 := by
  simp only [filterWord_eq_append, toNat_append_eq_add, toNat_extractLsb'_zero (n := 29) (Nat.lt_succ_of_le hv),
    BitVec.toNat_ofBool, BitVec.toNat_ofNat]
  omega

theorem filterHalf_lt (l : FilterLayout) (v : Word) (r e : Bool) : (filterHalf l v r e).toNat < 2 ^ 16 := by
  rw [filterHalf, BitVec.toNat_setWidth_of_le (by decide)]
  exact BitVec.isLt _

/-! ### The 64 bits of a slot -/

/-- A slot's number: F_W1 is the low 32 bits, F_W2 the high 32. -/
theorem toNat_eq_words (x : BitVec 64) :
    x.toNat = (x.extractLsb' 0 32).toNat + 2 ^ 32 * (x.extractLsb' 32 32).toNat := by
  simp only [BitVec.extractLsb'_toNat, Nat.shiftRight_eq_div_pow]
  omega

theorem slotBits_words_toNat (x y : Word) : (slotBits [0, 32] [x, y]).toNat = x.toNat + 2 ^ 32 * y.toNat := by
  obtain ⟨hw1, hw2⟩ := slotBits_words x y
  rw [toNat_eq_words, hw1, hw2]

theorem getLsbD_of_toNat_lt {v : Word} {n : Nat} (h : v.toNat < 2 ^ n) (j : Nat) (hj : n ≤ j) : v.getLsbD j = false :=
  Nat.testBit_lt_two_pow (h.trans_le (Nat.pow_le_pow_right (by decide) hj))

theorem slotBits_halves_toNat {a b c d : Word} (ha : a.toNat < 2 ^ 16) (hb : b.toNat < 2 ^ 16) (hc : c.toNat < 2 ^ 16)
    (hd : d.toNat < 2 ^ 16) :
    (slotBits [0, 16, 32, 48] [a, b, c, d]).toNat =
      a.toNat + 2 ^ 16 * b.toNat + 2 ^ 32 * (c.toNat + 2 ^ 16 * d.toNat) := by
  obtain ⟨hw1, hw2⟩ :=
    slotBits_halves (d := d) (getLsbD_of_toNat_lt ha) (getLsbD_of_toNat_lt hb) (getLsbD_of_toNat_lt hc)
  simp only [toNat_eq_words, hw1, hw2, toNat_append_eq_add, BitVec.toNat_setWidth]
  omega

/-! ### Callback references (20_memory.md R76) -/

/-- References that fit are written from index `i` on in order; every other element is as before. -/
theorem writeRefs_getElem? (cs refs : List Nat) (i j : Nat) (h : i + cs.length ≤ refs.length) :
    (writeRefs refs i cs)[j]? = if i ≤ j ∧ j < i + cs.length then cs[j - i]? else refs[j]? := by
  induction cs generalizing refs i with
  | nil => rw [writeRefs, if_neg (by simp)]
  | cons c cs ih =>
    simp only [List.length_cons] at h ⊢
    rw [writeRefs, ih _ _ (by rw [List.length_set]; omega)]
    obtain hbefore | rfl | hafter := Nat.lt_trichotomy j i
    · rw [if_neg (by omega), if_neg (by omega), List.getElem?_set_ne hbefore.ne']
    · rw [if_neg (by omega), if_pos (by omega), List.getElem?_set_self (by omega), Nat.sub_self, List.getElem?_cons_zero]
    · have hrange : (i + 1 ≤ j ∧ j < i + 1 + cs.length) ↔ (i ≤ j ∧ j < i + (cs.length + 1)) := by omega
      have hshift : j - i = j - (i + 1) + 1 := by omega
      rw [hshift, List.getElem?_cons_succ, List.getElem?_set_ne hafter.ne, if_congr hrange rfl rfl]

/-- Settles O33: each half, word and slot is read as the concatenation of its fields. -/
theorem filterWordsAndCallbacksHaveTheirPlaces : Obligations.FilterWordsAndCallbacksHaveTheirPlaces := by
  refine ⟨fun v r e hv => filterHalf_toNat hv r e, fun v e r hv => filterWord_toNat hv e r, filterHalf_lt, ?halves, ?words,
    fun b i j x hi => setBit_get b i j x hi,
    fun c cs hroom => ⟨rfl, writeRefs_length cs c.refs c.len, fun j => writeRefs_getElem? cs c.refs c.len j hroom⟩⟩
  case halves =>
    rintro _ a b c d rfl ha hb hc hd
    exact ⟨slotBits_halves_toNat ha hb hc hd, slotBits_halves_toNat ha hb hc hd⟩
  case words =>
    rintro _ a b rfl
    exact ⟨slotBits_words_toNat a b, slotBits_words_toNat a b⟩

/-! ### The outcomes of a filter command (R211, R212) -/

theorem fifoBit_eq_decide (k : FifoId) : fifoBit k = decide (k = .fifo1) := by cases k <;> rfl

/-- Both outcomes of a command `i` that is a filter command: with a full bank or without `valid` it changes only STATUS
and RES, else it commits its slot and RES is the slot's number. -/
theorem exec_filterCommand {i : Instr} {k : FifoId} {argsOk : Bool} {x : Slot} {s : State} {valid : Prop}
    (hexec : exec i s = .next (filterCommand k argsOk x s)) (hvalid : argsOk = true ↔ valid) :
    (s.bank.count.toNat = 14 ∨ ¬ valid →
      exec i s = .next { s with status := Status.executed false false, res := 0 }) ∧
    (s.bank.count.toNat < 14 → valid →
      exec i s = .next { (s.setCb k ((s.cb k).append x.callbacks)) with
        bank := { count := s.bank.count + 1
                  w1 := s.bank.w1.setIfInBounds s.bank.count.toNat x.w1
                  w2 := s.bank.w2.setIfInBounds s.bank.count.toNat x.w2
                  scale := setBit s.bank.scale s.bank.count.toNat x.scale
                  mode := setBit s.bank.mode s.bank.count.toNat x.mode
                  fifo := setBit s.bank.fifo s.bank.count.toNat (decide (k = .fifo1)) }
        status := Status.executed true false
        res := BitVec.ofNat 64 s.bank.count.toNat }) := by
  rw [hexec, filterCommand, ← hvalid, Bool.not_eq_true]
  refine ⟨fun hfail => congrArg _ (if_pos hfail), fun hroom hargs => ?committed⟩
  case committed =>
    rw [if_neg (by simp [hargs, hroom.ne]), ← fifoBit_eq_decide, BitVec.ofNat_toNat]
    cases k <;> rfl

/-! ### The four shapes (R211, R214, R216 to R219) -/

@[simp] theorem sidOk_iff (v : Word) : sidOk v = true ↔ v.toNat ≤ 0x7FF := decide_eq_true_iff
@[simp] theorem eidOk_iff (v : Word) : eidOk v = true ↔ v.toNat ≤ 0x1FFFFFFF := decide_eq_true_iff
@[simp] theorem contained_iff (b m : Word) : contained b m = true ↔ b &&& m = b := beq_iff_eq
@[simp] theorem formatOk_iff (f : Word) : formatOk f = true ↔ f.toNat ≤ 2 := decide_eq_true_iff
@[simp] theorem flagOk_iff (r : Word) : flagOk r = true ↔ r.toNat ≤ 1 := decide_eq_true_iff

/-- The remote bit of a mask half or word (R214), as the obligations write it. -/
theorem decide_ne_eq_bne (v w : Word) : decide (v ≠ w) = (v != w) := by
  rw [decide_not, bne, beq_eq_decide]

/-- Settles O29: FSTDMASK is a filter command with eight argument checks. -/
theorem fstdmaskEncodesOneSlotOrFails : Obligations.FstdmaskEncodesOneSlotOrFails := by
  rintro k s valid _ _ rfl hvalid rfl
  simp only [decide_ne_eq_bne]
  have hboth := exec_filterCommand (i := .fstdmask k) (s := s) (valid := valid) rfl (by
    simp [hvalid, arg_eq_getElem, and_assoc])
  exact ⟨rfl, hboth⟩

/-- Settles O30: FSTDQUAD is a filter command with eight argument checks, made in the order of the arguments. -/
theorem fstdquadEncodesOneSlotOrFails : Obligations.FstdquadEncodesOneSlotOrFails := by
  rintro k s valid _ _ rfl hvalid rfl
  have hboth := exec_filterCommand (i := .fstdquad k) (s := s) (valid := valid) rfl (by
    simp only [hvalid, Bool.and_eq_true, sidOk_iff, flagOk_iff, arg_eq_getElem, Nat.reduceLT]
    tauto)
  exact ⟨rfl, hboth⟩

/-- Settles O31: FEXTMASK is a filter command with four argument checks. -/
theorem fextmaskEncodesOneSlotOrFails : Obligations.FextmaskEncodesOneSlotOrFails := by
  rintro k s valid _ _ rfl hvalid rfl
  simp only [decide_ne_eq_bne]
  have hboth := exec_filterCommand (i := .fextmask k) (s := s) (valid := valid) rfl (by
    simp [hvalid, arg_eq_getElem, and_assoc])
  exact ⟨rfl, hboth⟩

/-- Settles O32: FEXTDUAL is a filter command with four argument checks, made in the order of the arguments. -/
theorem fextdualEncodesOneSlotOrFails : Obligations.FextdualEncodesOneSlotOrFails := by
  rintro k s valid _ _ rfl hvalid rfl
  have hboth := exec_filterCommand (i := .fextdual k) (s := s) (valid := valid) rfl (by
    simp only [hvalid, Bool.and_eq_true, eidOk_iff, flagOk_iff, arg_eq_getElem, Nat.reduceLT]
    tauto)
  exact ⟨rfl, hboth⟩

/-! ### The reads (R224, R225) -/

theorem execFget_answered {what : FWhat} {i : Nat} {s : State} (h : i < fgetSize s.cfg.ncb what) :
    exec (.fget what i) s = .next { s with status := Status.executed true false, res := s.filterRead what i } := if_pos h

theorem execFget_refused {what : FWhat} {i : Nat} {s : State} (h : fgetSize s.cfg.ncb what ≤ i) :
    exec (.fget what i) s = .next { s with status := Status.afterRefusal } := if_neg (Nat.not_lt.2 h)

/-- Settles O34, by the size of each selected object. -/
theorem fcountAndFgetReadTheBank : Obligations.FcountAndFgetReadTheBank := by
  refine fun s i => ⟨rfl, fun hi => ?words, fun r hi hr => ?cb0, fun r hi hr => ?cb1, fun hinv => ?size, rfl, rfl, rfl, rfl,
    rfl, fun hi => ?wordsOut, fun hi => ?callbacksOut, fun hi => ?singlesOut⟩
  case words =>
    rw [execFget_answered (what := .w1) hi, execFget_answered (what := .w2) hi]
    simp [State.filterRead, hi]
  case cb0 => rw [execFget_answered (what := .cb0) hi, State.filterRead, hr, Option.getD_some]
  case cb1 => rw [execFget_answered (what := .cb1) hi, State.filterRead, hr, Option.getD_some]
  case size =>
    have hsize0 : s.cb0.refs.length = s.cfg.ncb := (hinv.cb .fifo0).size
    have hsize1 : s.cb1.refs.length = s.cfg.ncb := (hinv.cb .fifo1).size
    rw [hsize0, hsize1]
    exact ⟨Iff.rfl, Iff.rfl⟩
  case wordsOut => rintro what (rfl | rfl) <;> exact execFget_refused hi
  case callbacksOut => rintro what (rfl | rfl) <;> exact execFget_refused hi
  case singlesOut => rintro what (rfl | rfl | rfl | rfl | rfl) <;> exact execFget_refused (Nat.one_le_iff_ne_zero.2 hi)

end Machine
end Sys2Proof
end

section
/-!
PROOFS. Commands that only a running driver admits, the next step of a command in progress, and the commands END, AVAILk
and DSTATE (44_driver.md R248, R258 to R260).
-/

namespace Sys2Proof
namespace Machine

/-! ### Admission while running (R260) -/

/-- Unless the driver is running, a command behind the admission check is refused. -/
theorem refused_of_not_running {s : State} (h : s.dState ≠ .running) (r : Result) :
    (if !s.isRunning then .next (s.refuse .state) else r) = .next { s with status := Status.afterRefusal } := by
  have hrun : s.isRunning = false := by simp [State.isRunning, h]
  rw [hrun]
  rfl

/-- While the driver is running, the admission check lets a command through. -/
theorem admitted_of_running {s : State} (h : s.dState = .running) (r : Result) :
    (if !s.isRunning then .next (s.refuse .state) else r) = r := by
  have hrun : s.isRunning = true := by simp [State.isRunning, h]
  rw [hrun]
  rfl

/-! ### The next step of a command in progress -/

/-- When MAIN's step is next and it holds a command in progress, it goes on with that. -/
theorem step_continue {s : State} {ts : List Turn} (hbusy : s.busy = true) (hmain : s.mainNext ts) :
    step s = continueMain { s with turns := ts } := by
  rw [step_mainNext hmain]
  exact if_pos hbusy

/-! ### END (R248) -/

/-- Settles O40, by the admission check; what END writes is its own equation. -/
theorem endMasksAndFreesTheQueues : Obligations.EndMasksAndFreesTheQueues := fun _ =>
  ⟨fun hstate => refused_of_not_running hstate _, fun hrun => admitted_of_running hrun _⟩

/-! ### AVAILk and DSTATE (R258, R259) -/

theorem exec_availCommand (k : FifoId) (s : State) :
    exec (availCommand k) s =
      if !s.isRunning then .next (s.refuse .state) else .next (available (rxQueueOf k) s) := by
  cases k <;> rfl

theorem available_eq (q : QueueId) (s : State) :
    available q s = { s with
      status := Status.executed (decide (0 < (s.queue q).cnt)) false
      res := BitVec.ofNat 64 (s.queue q).cnt } := by
  have hok : ((s.queue q).cnt != 0) = decide (0 < (s.queue q).cnt) := by
    rw [Bool.eq_iff_iff, bne_iff_ne, decide_eq_true_iff, Nat.pos_iff_ne_zero]
  rw [available, hok]
  rfl

theorem DState.code_lt (d : DState) : d.code < 4 := by cases d <;> decide

theorem Seq.code_lt (q : Seq) : q.code < 4 := by cases q <;> decide

/-- The three fields of DSTATE's result stand at disjoint places (30_encoding.md R110). -/
theorem driverWord_toNat (s : State) :
    s.driverWord.toNat = s.dState.code + 16 * s.seq.code + 256 * s.irqEn.toNat := by
  have key : ∀ d < 4, ∀ q < 4, ∀ e : BitVec 3,
      (BitVec.ofNat 64 d ||| (BitVec.ofNat 64 q <<< 4) ||| (e.setWidth 64 <<< 8)).toNat =
        d + 16 * q + 256 * e.toNat := by decide
  exact key _ s.dState.code_lt _ s.seq.code_lt _

/-- Settles O47, by the admission check and the value of DSTATE's word. -/
theorem availAndDstateReport : Obligations.AvailAndDstateReport := by
  refine fun s => ⟨fun k => ⟨fun hstate => ?_, fun hrun => ?_⟩, s.driverWord, rfl, driverWord_toNat s⟩
  · rw [exec_availCommand, refused_of_not_running hstate]
  · rw [exec_availCommand, admitted_of_running hrun, available_eq]

end Machine
end Sys2Proof
end

section
/-!
PROOFS. BEGIN: its code, step A and the three waits (44_driver.md R240 to R247).
-/

namespace Sys2Proof
namespace Machine

/-! ### The code and step A (R241 to R243) -/

/-- A BEGIN that is admitted and whose code is not 0 answers the code. -/
theorem execBegin_of_code_ne_zero {s : State} (hstate : s.dState = .uninitialized)
    (hcode : beginCode s.cfg.errBit s.timing s.settings.rate ≠ 0) :
    exec .drvBegin s = .next (s.finish false false (beginCode s.cfg.errBit s.timing s.settings.rate)) :=
  (if_neg (not_not.2 hstate)).trans (if_pos hcode)

/-- A BEGIN that is admitted and whose code is 0 takes step A. -/
theorem execBegin_of_code_eq_zero {s : State} (hstate : s.dState = .uninitialized)
    (hcode : beginCode s.cfg.errBit s.timing s.settings.rate = 0) : exec .drvBegin s = .next (beginStepA s) :=
  (if_neg (not_not.2 hstate)).trans (if_neg (not_not.2 hcode))

/-- The code with E_TOO_FAR as the obligations write it: the flag unless T_OK. -/
theorem beginCode_eq (e : ErrBits) (t : Timing) (rate : Word) :
    beginCode e t rate = (consistencyMask e t rate ||| if t.ok then 0 else 1#64 <<< e.tooFar) := by
  cases h : t.ok <;> simp [beginCode, flagAt, h]

/-- Settles O36: the code reported is the OR of the mask and E_TOO_FAR. -/
theorem beginReportsEveryViolation : Obligations.BeginReportsEveryViolation := by
  rintro s _ hstate rfl hcode
  rw [← beginCode_eq] at hcode ⊢
  rw [execBegin_of_code_ne_zero hstate hcode]
  rfl

/-- Several events in order: the trace is longer by them, the inputs are as they answer. -/
theorem emitAll_eq (s : State) (es : List Event) :
    s.emitAll es = { s with events := s.events ++ es, env := es.foldl Env.answer s.env } := by
  induction es generalizing s with
  | nil => rw [List.append_nil]; rfl
  | cons e es ih =>
    rw [emitAll_cons, ih, emit_events, List.append_assoc]
    rfl

theorem beginStepA_eq (s : State) :
    beginStepA s = { s.allocate with
      dState := .initializing
      seq := .enterConfig
      events := s.events ++ [.pClkEn, .pReset, .pPinCfg s.settings.oc, .pCfgEnter] } := by
  rw [beginStepA, emitAll_eq]
  rfl

/-- Settles O37: the code is 0, so step A is taken; an admitted size is written whole. -/
theorem beginAllocatesAndEntersConfiguration : Obligations.BeginAllocatesAndEntersConfiguration := by
  refine fun s hstate hok hmask => ⟨fun v hinv hv => ?whole, ?stepA⟩
  case whole =>
    obtain ⟨h0, h1, ht⟩ := hinv.sizes
    rcases hv with rfl | rfl | rfl
    · exact fit_size hinv.cfg_wf s.settings.rx0sz.isLt h0
    · exact fit_size hinv.cfg_wf s.settings.rx1sz.isLt h1
    · exact fit_size hinv.cfg_wf s.settings.txsz.isLt ht
  case stepA =>
    have hcode : beginCode s.cfg.errBit s.timing s.settings.rate = 0 := by
      rw [beginCode_eq, hmask, hok, if_pos rfl]
      exact BitVec.or_zero
    rw [execBegin_of_code_eq_zero hstate hcode, beginStepA_eq]
    rfl

/-! ### The three waits (R244 to R247) -/

theorem beginStepB_eq (s : State) :
    beginStepB s = { s with
      seq := .leaveConfig
      events := s.events ++ [s.timingEvent, .pFilters s.bank.banks, .pIer irqEnables, .pCfgLeave] } := by
  rw [beginStepB, emitAll_eq]
  rfl

theorem step_enterConfig {s : State} {ts : List Turn} (hmain : s.mainNext ts) (hseq : s.seq = .enterConfig)
    (hinak : s.env.inak = true) : step s = .next (beginStepB { s with turns := ts }) := by
  rw [step_continue (by simp [State.busy, hseq]) hmain]
  simp only [continueMain, hseq, hinak, if_true]

theorem step_leaveConfig {s : State} {ts : List Turn} (hmain : s.mainNext ts) (hseq : s.seq = .leaveConfig)
    (hinak : s.env.inak = false) : step s = .next { s with turns := ts, seq := .mailbox0 } := by
  rw [step_continue (by simp [State.busy, hseq]) hmain]
  simp only [continueMain, hseq, hinak, Bool.false_eq_true, if_false]

theorem step_mailbox0 {s : State} {ts : List Turn} (hmain : s.mainNext ts) (hseq : s.seq = .mailbox0)
    (htme : s.env.tme0 = true) : step s = .next (beginStepC { s with turns := ts }) := by
  rw [step_continue (by simp [State.busy, hseq]) hmain]
  simp only [continueMain, hseq, htme, if_true]

theorem banks_of_count_eq_zero {b : FilterBank} (h : b.count = 0) : b.banks = [defaultBank] := if_pos h

theorem banks_of_count_ne_zero {b : FilterBank} (h : b.count ≠ 0) :
    b.banks = (List.range b.count.toNat).map b.bankAt := if_neg h

/-- Settles O38, wait by wait. -/
theorem beginProgramsThePeripheralAndRuns : Obligations.BeginProgramsThePeripheralAndRuns := by
  intro s ts banks hmain hdefault hused
  have hbanks : s.bank.banks = banks := by
    by_cases hcount : s.bank.count = 0
    · rw [banks_of_count_eq_zero hcount, hdefault hcount]
      rfl
    · rw [banks_of_count_ne_zero hcount, hused hcount]
      rfl
  refine ⟨fun hseq hinak => ?wait1, step_leaveConfig hmain, fun hseq htme => ?wait3⟩
  case wait1 =>
    rw [step_enterConfig hmain hseq hinak, beginStepB_eq, ← hbanks]
    rfl
  case wait3 =>
    rw [step_mailbox0 hmain hseq htme]
    rfl

end Machine
end Sys2Proof
end

section
/-!
PROOFS. SEND: the queued path, the direct path and its step WRITE (44_driver.md R250 to R252).
-/

namespace Sys2Proof
namespace Machine

/-! ### The destination (R250) -/

theorem exec_send_queued {s : State} (hrun : s.dState = .running) (hidx : s.operandFrame.idx = 0) :
    exec .send s = .next (sendQueued s.operandFrame s) := by
  refine (admitted_of_running hrun _).trans ?_
  simp only [hidx]

theorem exec_send_direct {s : State} {m : Mailbox} (hrun : s.dState = .running)
    (h : (s.operandFrame.idx = 1 ∧ m = .mb1) ∨ (s.operandFrame.idx = 2 ∧ m = .mb2)) :
    exec .send s = sendDirect m s.operandFrame s := by
  refine (admitted_of_running hrun _).trans ?_
  rcases h with ⟨hidx, rfl⟩ | ⟨hidx, rfl⟩ <;> simp only [hidx]

theorem exec_send_outOfRange {s : State} (hrun : s.dState = .running) (hidx : 3 ≤ s.operandFrame.idx) :
    exec .send s = .next { s with status := Status.executed false false, res := 1 } := by
  refine (admitted_of_running hrun _).trans ?_
  split
  · omega
  · omega
  · omega
  · rfl

/-! ### The queued path (R251) -/

theorem sendQueued_straight {s : State} {f : Frame} (h : s.txq.cnt = 0 ∧ s.env.tme0 = true) :
    sendQueued f s = { s with
      events := s.events ++ [.pMbWrite .mb0 f]
      env := { s.env with tme0 := false }
      status := Status.executed true false
      res := 0 } := if_pos h

theorem sendQueued_full {s : State} {f : Frame} (h : ¬ (s.txq.cnt = 0 ∧ s.env.tme0 = true))
    (hfull : s.txq.cnt = s.txq.cap) :
    sendQueued f s = { s with status := Status.executed false false, res := 2 } := by
  rw [sendQueued, if_neg h, append_none.2 hfull]
  rfl

theorem sendQueued_append {s : State} {f : Frame} (h : ¬ (s.txq.cnt = 0 ∧ s.env.tme0 = true))
    (hroom : s.txq.cnt ≠ s.txq.cap) :
    ∃ q, s.txq.append f = some q ∧
      sendQueued f s = { s with txq := q, status := Status.executed true false, res := 0 } := by
  cases happ : s.txq.append f with
  | none => exact absurd (append_none.1 happ) hroom
  | some q =>
    refine ⟨q, rfl, ?_⟩
    rw [sendQueued, if_neg h, happ]
    rfl

/-- Settles O41, by the three outcomes of the queued path. -/
theorem sendQueuedPathAdmission : Obligations.SendQueuedPathAdmission := by
  intro s hrun hidx hwf
  have hqueued : s.txq.cnt ≠ 0 ∨ s.env.tme0 = false → ¬ (s.txq.cnt = 0 ∧ s.env.tme0 = true) := by
    rintro (hcnt | htme) ⟨hcnt', htme'⟩
    · exact hcnt hcnt'
    · exact Bool.noConfusion (htme.symm.trans htme')
  rw [exec_send_queued hrun hidx]
  refine ⟨fun hcnt htme => ?straight, fun hbusy hfull => ?full, fun hbusy hroom => ?append⟩
  case straight => rw [sendQueued_straight ⟨hcnt, htme⟩]
  case full => rw [sendQueued_full (hqueued hbusy) hfull]
  case append =>
    obtain ⟨q, happ, hsend⟩ := sendQueued_append (f := s.operandFrame) (hqueued hbusy) hroom
    obtain ⟨-, hcap, hrd, hcnt, hstore, hpeak⟩ := append_cases happ
    refine ⟨q, by rw [hsend], hcap, hrd, hcnt, hcnt ▸ hpeak, fun i => ?_⟩
    rw [hstore]
    exact memRead_memWrite _ i _ hwf

/-! ### The direct path (R252) -/

theorem sendDirect_busy {s : State} {m : Mailbox} {f : Frame} (htme : s.env.tme m = false) :
    sendDirect m f s = .next { s with status := Status.executed false false, res := 2 } := if_pos (by simp [htme])

theorem sendDirect_test {s : State} {m : Mailbox} {f : Frame} (htme : s.env.tme m = true)
    (hatomic : s.cfg.directAtomic = false) : sendDirect m f s = .next { s with op := .sendWrite m f } := by
  rw [sendDirect, if_neg (by simp [htme]), if_neg (by simp [hatomic])]

theorem sendDirect_atomic {s : State} {m : Mailbox} {f : Frame} (htme : s.env.tme m = true)
    (hatomic : s.cfg.directAtomic = true) : sendDirect m f s = sendWriteStep m f s := by
  rw [sendDirect, if_neg (by simp [htme]), if_pos hatomic]

theorem sendWriteStep_free {s : State} {m : Mailbox} {f : Frame} (htme : s.env.tme m = true) :
    sendWriteStep m f s = .next { s with
      events := s.events ++ [.pMbWrite m f]
      env := s.env.setTme m false
      op := .idle
      status := Status.executed true false
      res := 0 } := if_pos htme

theorem sendWriteStep_taken {s : State} {m : Mailbox} {f : Frame} (htme : s.env.tme m = false) :
    sendWriteStep m f s = .fault .mailboxTaken := if_neg (by simp [htme])

/-- Between TEST and WRITE of a direct SEND the next step of MAIN is WRITE. -/
theorem step_sendWrite {s : State} {m : Mailbox} {f : Frame} {ts : List Turn} (hmain : s.mainNext ts)
    (hseq : s.seq = .idle) (hop : s.op = .sendWrite m f) : step s = sendWriteStep m f { s with turns := ts } := by
  rw [step_continue (by simp [State.busy, hop]) hmain]
  simp only [continueMain, hseq, hop]

/-- Settles O42, by the outcomes of TEST and of WRITE. -/
theorem sendDirectPathTestsThenWrites : Obligations.SendDirectPathTestsThenWrites := by
  refine ⟨fun s m hrun hm => ?test, fun s m f ts hseq hop hmain => ?write⟩
  case test =>
    rw [exec_send_direct hrun hm]
    refine ⟨sendDirect_busy, sendDirect_test, fun htme hatomic => ?_⟩
    rw [sendDirect_atomic htme hatomic, sendWriteStep_free htme]
  case write =>
    rw [step_sendWrite hmain hseq hop]
    exact ⟨fun htme => sendWriteStep_free (s := { s with turns := ts }) htme,
      fun htme => sendWriteStep_taken (s := { s with turns := ts }) htme⟩

/-! ### The codes (R250; 30_encoding.md R109) -/

/-- What a SEND of `f` that is not refused leaves: MAIN before WRITE, or a code in RES with OK telling code 0, where
codes 1 and 2 change only STATUS and RES. -/
def SendAnswer (s : State) (f : Frame) (t : State) : Prop :=
  (∃ m, t = { s with op := .sendWrite m f }) ∨
    ((t.res = 0 ∨ t.res = 1 ∨ t.res = 2) ∧ t.status = Status.executed (decide (t.res = 0)) false ∧
      (t.res ≠ 0 → t = { s with status := Status.executed false false, res := t.res }))

theorem sendAnswer_accepted {s t : State} {f : Frame} (hres : t.res = 0)
    (hstatus : t.status = Status.executed true false) : SendAnswer s f t :=
  .inr ⟨.inl hres, by simp [hres, hstatus], fun hne => absurd hres hne⟩

theorem sendAnswer_declined {s : State} {f : Frame} {code : BitVec 64} (hcode : code = 1 ∨ code = 2) :
    SendAnswer s f { s with status := Status.executed false false, res := code } := by
  have hne : code ≠ 0 := by rcases hcode with rfl | rfl <;> decide
  exact .inr ⟨.inr hcode, by rw [decide_eq_false hne], fun _ => rfl⟩

theorem sendQueued_answer (f : Frame) (s : State) : SendAnswer s f (sendQueued f s) := by
  by_cases hstraight : s.txq.cnt = 0 ∧ s.env.tme0 = true
  · rw [sendQueued_straight hstraight]
    exact sendAnswer_accepted rfl rfl
  · by_cases hfull : s.txq.cnt = s.txq.cap
    · rw [sendQueued_full hstraight hfull]
      exact sendAnswer_declined (.inr rfl)
    · obtain ⟨q, -, hsend⟩ := sendQueued_append (f := f) hstraight hfull
      rw [hsend]
      exact sendAnswer_accepted rfl rfl

theorem sendDirect_answer (m : Mailbox) (f : Frame) (s : State) : Answers (SendAnswer s f) (sendDirect m f s) := by
  cases htme : s.env.tme m with
  | false =>
    rw [sendDirect_busy htme]
    exact answers_next (sendAnswer_declined (.inr rfl))
  | true =>
    cases hatomic : s.cfg.directAtomic with
    | false =>
      rw [sendDirect_test htme hatomic]
      exact answers_next (.inl ⟨m, rfl⟩)
    | true =>
      rw [sendDirect_atomic htme hatomic, sendWriteStep_free htme]
      exact answers_next (sendAnswer_accepted rfl rfl)

theorem exec_send_answer {s : State} (hrun : s.dState = .running) :
    Answers (SendAnswer s s.operandFrame) (exec .send s) := by
  obtain hidx | hidx | hidx | hidx : s.operandFrame.idx = 0 ∨ s.operandFrame.idx = 1 ∨ s.operandFrame.idx = 2 ∨
      3 ≤ s.operandFrame.idx := by omega
  · rw [exec_send_queued hrun hidx]
    exact answers_next (sendQueued_answer _ s)
  · rw [exec_send_direct hrun (.inl ⟨hidx, rfl⟩)]
    exact sendDirect_answer _ _ s
  · rw [exec_send_direct hrun (.inr ⟨hidx, rfl⟩)]
    exact sendDirect_answer _ _ s
  · rw [exec_send_outOfRange hrun hidx]
    exact answers_next (sendAnswer_declined (.inl rfl))

/-- Settles O43, by the outcomes of the two paths; FOP has no writer among the instructions. -/
theorem sendActsOnTheDestinationIndex : Obligations.SendActsOnTheDestinationIndex := by
  refine ⟨?exec, fun s m f ts hseq hop hmain => ?write⟩
  case exec =>
    rintro s _ rfl
    refine ⟨rfl, fun hstate => refused_of_not_running hstate _, fun hrun => ⟨fun hidx => ?queued, fun m hm => ?direct,
      exec_send_outOfRange hrun, fun t ht => ⟨(exec_writes ht).fop_eq, exec_send_answer hrun t ht⟩⟩⟩
    case queued =>
      rw [exec_send_queued hrun hidx]
      refine ⟨rfl, fun hstraight => ?_, fun hbusy hroom => ?_, fun hbusy hfull => by rw [sendQueued_full hbusy hfull]⟩
      · exact ⟨_, rfl, by rw [sendQueued_straight hstraight]; exact ⟨rfl, rfl, rfl⟩⟩
      · obtain ⟨q, happ, hsend⟩ := sendQueued_append hbusy hroom
        exact ⟨_, rfl, by rw [hsend]; exact ⟨rfl, rfl, happ⟩⟩
    case direct =>
      rw [exec_send_direct hrun hm]
      refine ⟨rfl, sendDirect_busy, fun htme hatomic => ?_, sendDirect_test⟩
      rw [sendDirect_atomic htme hatomic, sendWriteStep_free htme]
      exact ⟨_, rfl, rfl, rfl⟩
  case write =>
    rw [step_sendWrite hmain hseq hop]
    exact ⟨fun htme => ⟨_, sendWriteStep_free (s := { s with turns := ts }) htme, rfl, rfl, rfl, rfl, rfl⟩,
      fun htme => sendWriteStep_taken (s := { s with turns := ts }) htme⟩

end Machine
end Sys2Proof
end

section
/-!
PROOFS. RECVk, DISPk and DISP: POP of the oldest frame and CALL of its callback (44_driver.md R254 to R257).
-/

namespace Sys2Proof
namespace Machine

/-- A queue that is not empty yields the oldest of its frames; CAP, PEAK and the slots stay. -/
theorem exists_remove {id : QueueId} {q : Queue} (hq : q.Inv) (hne : q.cnt ≠ 0) :
    ∃ f q', q.remove id = some (f, q') ∧ q.contents id = f :: q'.contents id ∧ q'.cap = q.cap ∧ q'.peak = q.peak ∧
      q'.store = q.store := by
  have hremove := remove_of_cnt_ne_zero (id := id) hne
  obtain ⟨-, -, hcap, hpeak, hstore, -, -⟩ := remove_cases hremove
  exact ⟨_, _, hremove, remove_contents hq hremove, hcap, hpeak, hstore⟩

/-! ### RECVk (R254) -/

theorem exec_recvCommand (k : FifoId) (s : State) :
    exec (recvCommand k) s =
      if !s.isRunning then .next (s.refuse .state) else .next (removeToFres (rxQueueOf k) s) := by
  cases k <;> rfl

/-- Settles O44, by what a remove yields. -/
theorem recvYieldsTheOldestFrame : Obligations.RecvYieldsTheOldestFrame := by
  refine fun k s => ⟨by cases k <;> rfl, fun hstate => ?_, fun hrun hempty => ?_, fun hrun hne hinv => ?_⟩ <;>
    rw [exec_recvCommand]
  · exact refused_of_not_running hstate _
  · rw [admitted_of_running hrun, removeToFres, remove_none.2 hempty]
    rfl
  · obtain ⟨f, q', hremove, hcontents, hcap, hpeak, hstore⟩ := exists_remove (id := rxQueueOf k) hinv hne
    refine ⟨f, q', hcontents, hcap, hpeak, hstore, ?_⟩
    rw [admitted_of_running hrun, removeToFres, hremove]
    rfl

/-! ### POP (R255) -/

theorem dispatchPop_empty {k : FifoId} {combined : Bool} {onEmpty : State → State} {s : State}
    (h : (s.queue (rxQueueOf k)).cnt = 0) : dispatchPop k combined onEmpty s = onEmpty s := by
  rw [dispatchPop, remove_none.2 h]

theorem dispatchPop_of_remove {k : FifoId} {combined : Bool} {onEmpty : State → State} {s : State} {f : Frame}
    {q : Queue} (h : (s.queue (rxQueueOf k)).remove (rxQueueOf k) = some (f, q)) :
    dispatchPop k combined onEmpty s = { (s.setQueue (rxQueueOf k) q) with op := .dispCall k f combined } := by
  rw [dispatchPop, h]

theorem exec_dispCommand (k : FifoId) (s : State) :
    exec (dispCommand k) s =
      if !s.isRunning then .next (s.refuse .state)
      else .next (dispatchPop k false (fun t => t.dispatched false) s) := by
  cases k <;> rfl

/-! ### CALL (R255, R256) -/

/-- What CALL emits for a frame of FIFO k: one CB_INVOKE when a callback is bound to its index, else nothing. -/
def State.invocation (s : State) (k : FifoId) (f : Frame) : List Event :=
  match s.boundCallback k f.idx with
  | none => []
  | some h => [.cbInvoke k f.idx h f]

theorem invoke_eq (s : State) (k : FifoId) (f : Frame) :
    s.invoke k f = { s with events := s.events ++ s.invocation k f } := by
  rw [State.invoke, State.invocation]
  cases s.boundCallback k f.idx with
  | none => simp only [List.append_nil]
  | some h => rfl

theorem invocation_bound {s : State} {k : FifoId} {f : Frame} {h : Nat} (hidx : f.idx < (s.dcb k).len)
    (href : (s.dcb k).refs[f.idx]? = some h) (hne : h ≠ 0) : s.invocation k f = [.cbInvoke k f.idx h f] := by
  simp [State.invocation, State.boundCallback, hidx, href, hne]

theorem invocation_unbound {s : State} {k : FifoId} {f : Frame}
    (h : (s.dcb k).len ≤ f.idx ∨ (s.dcb k).refs[f.idx]?.getD 0 = 0) : s.invocation k f = [] := by
  rcases h with h | h
  · simp [State.invocation, State.boundCallback, Nat.not_lt.2 h]
  · simp [State.invocation, State.boundCallback, h]

/-- Between POP and CALL of a dispatch the next step of MAIN is CALL. -/
theorem step_dispCall {s : State} {k : FifoId} {f : Frame} {combined : Bool} {ts : List Turn} (hmain : s.mainNext ts)
    (hseq : s.seq = .idle) (hop : s.op = .dispCall k f combined) :
    step s = .next (dispatchCall k f combined { s with turns := ts }) := by
  rw [step_continue (by simp [State.busy, hop]) hmain]
  simp only [continueMain, hseq, hop]

/-- CALL ends the command, unless it is DISP's dispatch of FIFO 0. -/
theorem step_dispCall_last {s : State} {k : FifoId} {f : Frame} {combined : Bool} {ts : List Turn}
    (hmain : s.mainNext ts) (hseq : s.seq = .idle) (hop : s.op = .dispCall k f combined)
    (hlast : combined = false ∨ k = .fifo1) :
    step s = .next { s with
      turns := ts
      events := s.events ++ s.invocation k f
      op := .idle
      status := Status.executed true false
      res := 0 } := by
  have hcall : ∀ t : State, dispatchCall k f combined t = (t.invoke k f).dispatched true := by
    intro t
    rcases hlast with rfl | rfl
    · rfl
    · cases combined <;> rfl
  rw [step_dispCall hmain hseq hop, hcall, invoke_eq]
  rfl

/-- DISP goes on to FIFO 1 after CALL for FIFO 0 (R257). -/
theorem step_dispCall_first {s : State} {f : Frame} {ts : List Turn} (hmain : s.mainNext ts)
    (hseq : s.seq = .idle) (hop : s.op = .dispCall .fifo0 f true) :
    step s = .next { s with
      turns := ts
      events := s.events ++ s.invocation .fifo0 f
      op := .dispSecond true } := by
  rw [step_dispCall hmain hseq hop, dispatchCall, invoke_eq]
  rfl

/-- Settles O45, by the outcomes of POP and of CALL. -/
theorem dispatchPopsThenInvokes : Obligations.DispatchPopsThenInvokes := by
  refine ⟨fun k s => ?pop, fun k f s ts hseq hop hmain => ?call⟩
  case pop =>
    rw [exec_dispCommand]
    refine ⟨fun hstate => refused_of_not_running hstate _, fun hrun hempty => ?_, fun hrun hne hinv => ?_⟩
    · rw [admitted_of_running hrun, dispatchPop_empty hempty]
      rfl
    · obtain ⟨f, q', hremove, hcontents, hcap, hpeak, hstore⟩ := exists_remove (id := rxQueueOf k) hinv hne
      refine ⟨f, q', hcontents, hcap, hpeak, hstore, ?_⟩
      rw [admitted_of_running hrun, dispatchPop_of_remove hremove]
  case call =>
    rw [step_dispCall_last hmain hseq hop (.inl rfl)]
    refine ⟨fun h hidx href hne => ?_, fun hunbound => ?_⟩
    · rw [invocation_bound hidx href hne]
    · rw [invocation_unbound hunbound, List.append_nil]

/-! ### DISP (R257) -/

/-- After its dispatch of FIFO 0 the next step of DISP is the POP of FIFO 1. -/
theorem step_dispSecond {s : State} {yielded : Bool} {ts : List Turn} (hmain : s.mainNext ts)
    (hseq : s.seq = .idle) (hop : s.op = .dispSecond yielded) :
    step s = .next (dispatchPop .fifo1 true (fun t => t.dispatched yielded) { s with turns := ts }) := by
  rw [step_continue (by simp [State.busy, hop]) hmain]
  simp only [continueMain, hseq, hop]
  rfl

/-- Settles O46, step by step: POP and CALL for FIFO 0, then for FIFO 1. -/
theorem dispDispatchesBothFifos : Obligations.DispDispatchesBothFifos := by
  refine ⟨fun s => ⟨fun hstate => refused_of_not_running hstate _, fun hrun hempty => ?empty0,
      fun hrun hne hinv => ?pop0⟩,
    fun f s ts hseq hop hmain => ⟨_, step_dispCall_first hmain hseq hop,
      fun _ => invocation_bound (k := .fifo0), invocation_unbound (k := .fifo0)⟩,
    fun yielded s ts hseq hop hmain => ⟨fun hempty => ?empty1, fun hne hinv => ?pop1⟩,
    fun f s ts hseq hop hmain => ⟨_, step_dispCall_last hmain hseq hop (.inr rfl),
      fun _ => invocation_bound (k := .fifo1), invocation_unbound (k := .fifo1)⟩⟩
  case empty0 =>
    refine (admitted_of_running hrun _).trans ?_
    rw [dispatchPop_empty (k := .fifo0) hempty]
  case pop0 =>
    obtain ⟨f, q', hremove, hcontents, hcap, hpeak, hstore⟩ := exists_remove (id := .rxq0) hinv hne
    refine ⟨f, q', hcontents, hcap, hpeak, hstore, (admitted_of_running hrun _).trans ?_⟩
    rw [dispatchPop_of_remove (k := .fifo0) hremove]
    rfl
  case empty1 =>
    rw [step_dispSecond hmain hseq hop, dispatchPop_empty (k := .fifo1) (s := { s with turns := ts }) hempty]
    rfl
  case pop1 =>
    obtain ⟨f, q', hremove, hcontents, hcap, hpeak, hstore⟩ := exists_remove (id := .rxq1) hinv hne
    refine ⟨f, q', hcontents, hcap, hpeak, hstore, ?_⟩
    rw [step_dispSecond hmain hseq hop, dispatchPop_of_remove (k := .fifo1) (s := { s with turns := ts }) hremove]
    rfl

end Machine
end Sys2Proof
end

section
/-!
PROOFS. D_STATE, SEQ and IRQ_EN: the operations, instructions and steps that move them (10_state.md R45 to R47;
44_driver.md R260).
-/

namespace Sys2Proof
namespace Machine

/-- The three sequencing registers. -/
structure Sequencing where
  dState : DState
  seq    : Seq
  irqEn  : BitVec 3

def State.sequencing (s : State) : Sequencing := { dState := s.dState, seq := s.seq, irqEn := s.irqEn }

/-! ### The shared operations leave them -/

@[simp] theorem finish_sequencing (s : State) (ok fv : Bool) (r : BitVec 64) :
    (s.finish ok fv r).sequencing = s.sequencing := rfl
@[simp] theorem setQueue_sequencing (s : State) (id : QueueId) (q : Queue) :
    (s.setQueue id q).sequencing = s.sequencing := by cases id <;> rfl
@[simp] theorem setCb_sequencing (s : State) (k : FifoId) (c : CallbackArray) :
    (s.setCb k c).sequencing = s.sequencing := by cases k <;> rfl
@[simp] theorem emitAll_sequencing (s : State) (es : List Event) : (s.emitAll es).sequencing = s.sequencing := by
  rw [emitAll_eq]
  rfl

theorem removeToFres_sequencing (q : QueueId) (s : State) : (removeToFres q s).sequencing = s.sequencing := by
  unfold removeToFres
  split
  · rfl
  · exact setQueue_sequencing s q _

theorem filterCommand_sequencing (k : FifoId) (argsOk : Bool) (x : Slot) (s : State) :
    (filterCommand k argsOk x s).sequencing = s.sequencing := by
  unfold filterCommand
  split
  · rfl
  · exact setCb_sequencing _ k _

theorem sendQueued_sequencing (f : Frame) (s : State) : (sendQueued f s).sequencing = s.sequencing := by
  unfold sendQueued
  split
  · rfl
  · split <;> rfl

theorem dispatchPop_sequencing {k : FifoId} {combined : Bool} {onEmpty : State → State} {s : State}
    (h : (onEmpty s).sequencing = s.sequencing) : (dispatchPop k combined onEmpty s).sequencing = s.sequencing := by
  unfold dispatchPop
  split
  · exact h
  · exact setQueue_sequencing s _ _

theorem dispatchCall_sequencing (k : FifoId) (f : Frame) (combined : Bool) (s : State) :
    (dispatchCall k f combined s).sequencing = s.sequencing := by
  unfold dispatchCall
  split <;> (rw [invoke_eq]; rfl)

theorem receiveHandler_sequencing (k : FifoId) (s : State) : (receiveHandler k s).sequencing = s.sequencing := by
  have h1 : (if (s.env.rx k).fmp then receiveFrame k s else s).sequencing = s.sequencing := by
    split
    · exact setQueue_sequencing s _ _
    · rfl
  unfold receiveHandler
  simp only
  split <;> split <;> exact h1

/-! ### Outcomes that leave them -/

/-- Whatever state the outcome holds has the sequencing registers of `s`. -/
abbrev KeepsSequencing (s : State) (r : Result) : Prop := Answers (fun t => t.sequencing = s.sequencing) r

/-- A command that is refused or ends in `t`. -/
theorem keepsSequencing_admitted {s t : State} {c : Prop} [Decidable c] {w : RefusedBecause}
    (h : t.sequencing = s.sequencing) : KeepsSequencing s (if c then .next (s.refuse w) else .next t) :=
  answers_ite (answers_next rfl) (answers_next h)

theorem execQinit_keepsSequencing (q : QueueId) (n : Nat) (s : State) : KeepsSequencing s (execQinit q n s) :=
  answers_ite (answers_next rfl) (keepsSequencing_admitted (setQueue_sequencing s q _))

theorem execQappend_keepsSequencing (q : QueueId) (s : State) : KeepsSequencing s (execQappend q s) := by
  refine answers_ite (answers_next rfl) ?_
  split
  · exact answers_next rfl
  · exact answers_next (setQueue_sequencing s q _)

theorem execResolve_keepsSequencing (s : State) : KeepsSequencing s (execResolve s) := by
  unfold execResolve
  split
  · exact answers_next rfl
  · exact answers_next (finish_sequencing _ _ _ _)

theorem execTset_keepsSequencing (f : TField) (v : Nat) (s : State) : KeepsSequencing s (execTset f v s) := by
  unfold execTset
  split
  · exact answers_next rfl
  · exact keepsSequencing_admitted rfl

theorem execSset_keepsSequencing (f : SField) (v : Nat) (s : State) : KeepsSequencing s (execSset f v s) := by
  unfold execSset
  split
  · exact answers_next rfl
  · exact keepsSequencing_admitted rfl

theorem sendWriteStep_keepsSequencing (m : Mailbox) (f : Frame) (s : State) :
    KeepsSequencing s (sendWriteStep m f s) :=
  answers_ite (answers_next rfl) (answers_fault _ _)

theorem sendDirect_keepsSequencing (m : Mailbox) (f : Frame) (s : State) : KeepsSequencing s (sendDirect m f s) :=
  answers_ite (answers_next rfl) (answers_ite (sendWriteStep_keepsSequencing m f s) (answers_next rfl))

theorem execSend_keepsSequencing (s : State) : KeepsSequencing s (execSend s) := by
  refine answers_ite (answers_next rfl) ?_
  split
  · exact answers_next (sendQueued_sequencing _ s)
  · exact sendDirect_keepsSequencing _ _ s
  · exact sendDirect_keepsSequencing _ _ s
  · exact answers_next rfl

theorem exec_rxIsr_keepsSequencing (k : FifoId) (s : State) : KeepsSequencing s (exec (rxIsr k) s) := by
  rw [exec_rxIsr]
  exact answers_ite (answers_next (receiveHandler_sequencing k s)) (answers_next rfl)

theorem exec_isrTx_keepsSequencing (s : State) : KeepsSequencing s (exec .isrTx s) := by
  refine answers_ite ?_ (answers_next rfl)
  rcases transmitHandler_cases s with ⟨-, h⟩ | ⟨-, -, h⟩ | ⟨-, -, f, q, -, ⟨-, h⟩ | ⟨m, -, h⟩⟩ <;> rw [h]
  · exact answers_next rfl
  · exact answers_next rfl
  · exact answers_fault _ _
  · exact answers_next (emitAll_sequencing _ _)

/-- Only BEGIN and END write a sequencing register in their first step. -/
theorem exec_keepsSequencing {i : Instr} (s : State) (hbegin : i ≠ .drvBegin) (hend : i ≠ .drvEnd) :
    KeepsSequencing s (exec i s) := by
  cases i with
  | drvBegin => exact absurd rfl hbegin
  | drvEnd => exact absurd rfl hend
  | qinit q n => exact execQinit_keepsSequencing q n s
  | qappend q => exact execQappend_keepsSequencing q s
  | qremove q => exact keepsSequencing_admitted (removeToFres_sequencing q s)
  | recv0 => exact keepsSequencing_admitted (removeToFres_sequencing .rxq0 s)
  | recv1 => exact keepsSequencing_admitted (removeToFres_sequencing .rxq1 s)
  | qfree q => exact keepsSequencing_admitted (setQueue_sequencing s q _)
  | qrstpeak q => exact answers_next (setQueue_sequencing s q _)
  | resolve => exact execResolve_keepsSequencing s
  | tset f v => exact execTset_keepsSequencing f v s
  | sset f v => exact execSset_keepsSequencing f v s
  | fstdmask k | fstdquad k | fextmask k | fextdual k => exact answers_next (filterCommand_sequencing k _ _ s)
  | fget what index => exact answers_ite (answers_next rfl) (answers_next rfl)
  | send => exact execSend_keepsSequencing s
  | disp0 | disp1 | disp => exact keepsSequencing_admitted (dispatchPop_sequencing rfl)
  | isrRx0 => exact exec_rxIsr_keepsSequencing .fifo0 s
  | isrRx1 => exact exec_rxIsr_keepsSequencing .fifo1 s
  | isrTx => exact exec_isrTx_keepsSequencing s
  | trate | tppm | avail0 | avail1 => exact keepsSequencing_admitted rfl
  | qcount | qpeak | qcap | tget | tcheck | texact | tsample | sget | fcount | dstate => exact answers_next rfl

/-! ### What moves them -/

/-- What a step, reset apart, does to the sequencing registers: nothing, step A of BEGIN, the exit of one of its three
waits, or END. -/
inductive SequencingMoves : Sequencing → Sequencing → Prop
  | stay (r : Sequencing) : SequencingMoves r r
  | beginA (q : Seq) (e : BitVec 3) : SequencingMoves ⟨.uninitialized, q, e⟩ ⟨.initializing, .enterConfig, e⟩
  | wait1 (d : DState) (e : BitVec 3) : SequencingMoves ⟨d, .enterConfig, e⟩ ⟨d, .leaveConfig, e⟩
  | wait2 (d : DState) (e : BitVec 3) : SequencingMoves ⟨d, .leaveConfig, e⟩ ⟨d, .mailbox0, e⟩
  | wait3 (d : DState) (e : BitVec 3) : SequencingMoves ⟨d, .mailbox0, e⟩ ⟨.running, .idle, 7⟩
  | stop (q : Seq) (e : BitVec 3) : SequencingMoves ⟨.running, q, e⟩ ⟨.stopped, q, 0⟩

/-- The sequencing registers of `s` move to those of whatever state the outcome holds. -/
abbrev MovesSequencing (s : State) (r : Result) : Prop :=
  Answers (fun t => SequencingMoves s.sequencing t.sequencing) r

theorem movesSequencing_of_keeps {s : State} {r : Result} (h : KeepsSequencing s r) : MovesSequencing s r := by
  intro t ht
  rw [h t ht]
  exact .stay _

theorem movesSequencing_same {s t : State} (h : t.sequencing = s.sequencing) : MovesSequencing s (.next t) :=
  movesSequencing_of_keeps (answers_next h)

theorem execBegin_moves (s : State) : MovesSequencing s (execBegin s) := by
  unfold execBegin
  split
  · exact movesSequencing_same rfl
  · next hstate =>
    refine answers_ite (movesSequencing_same rfl) (answers_next ?_)
    rw [beginStepA_eq, State.sequencing, not_not.1 hstate]
    exact .beginA s.seq s.irqEn

theorem execEnd_moves (s : State) : MovesSequencing s (execEnd s) := by
  unfold execEnd
  split
  · exact movesSequencing_same rfl
  · next hrun =>
    refine answers_next ?_
    rw [State.sequencing, running_of hrun]
    exact .stop s.seq s.irqEn

theorem exec_moves (i : Instr) (s : State) : MovesSequencing s (exec i s) := by
  by_cases hbegin : i = .drvBegin
  · exact hbegin ▸ execBegin_moves s
  · by_cases hend : i = .drvEnd
    · exact hend ▸ execEnd_moves s
    · exact movesSequencing_of_keeps (exec_keepsSequencing s hbegin hend)

/-- The later steps of a command in progress: each wait of BEGIN has its own exit. -/
theorem continueMain_moves (s : State) : MovesSequencing s (continueMain s) := by
  unfold continueMain
  split
  · next hseq =>
    refine answers_ite (answers_next ?_) (movesSequencing_same rfl)
    rw [beginStepB_eq, State.sequencing, hseq]
    exact .wait1 s.dState s.irqEn
  · next hseq =>
    refine answers_ite (movesSequencing_same rfl) (answers_next ?_)
    rw [State.sequencing, hseq]
    exact .wait2 s.dState s.irqEn
  · next hseq =>
    refine answers_ite (answers_next ?_) (movesSequencing_same rfl)
    rw [State.sequencing, hseq]
    exact .wait3 s.dState s.irqEn
  · split
    · exact movesSequencing_same rfl
    · exact movesSequencing_of_keeps (sendWriteStep_keepsSequencing _ _ s)
    · exact movesSequencing_same (dispatchCall_sequencing _ _ _ s)
    · exact movesSequencing_same (dispatchPop_sequencing rfl)

/-! ### What a step moves -/

theorem hostWriteReg_sequencing (s : State) (reg : Nat) (w : Word) :
    (s.hostWriteReg reg w).sequencing = s.sequencing := by
  unfold State.hostWriteReg
  split
  · rfl
  · split <;> rfl

theorem hostStep_moves (a : HostAction) (s : State) : MovesSequencing s (hostStep a s) := by
  cases a with
  | read reg => exact movesSequencing_same rfl
  | write reg w =>
    refine answers_ite ?_ (movesSequencing_same (hostWriteReg_sequencing s reg w))
    rcases runCommand_cases w s with ⟨_, -, hr⟩ | ⟨i, -, hr⟩ <;> rw [hr]
    · exact movesSequencing_same rfl
    · exact exec_moves i s

theorem mainStep_moves (s : State) : MovesSequencing s (mainStep s) := by
  rcases mainStep_cases s with ⟨-, hm⟩ | ⟨-, -, hm⟩ | ⟨-, a, hs, -, hm⟩ <;> rw [hm]
  · exact continueMain_moves s
  · exact movesSequencing_same rfl
  · exact hostStep_moves a { s with host := hs }

theorem strobeStep_moves (v : BitVec 2) (s : State) : MovesSequencing s (strobeStep v s) := by
  unfold strobeStep
  split
  · exact movesSequencing_same rfl
  · exact exec_moves _ s

theorem step_moves {s : State} (hreset : ∀ ts, s.turns ≠ .reset :: ts) : MovesSequencing s (step s) := by
  rcases step_cases s with ⟨-, hm⟩ | ⟨t, ts, ht, hm⟩ <;> rw [hm]
  · exact mainStep_moves s
  · cases t with
    | main => exact mainStep_moves { s with turns := ts }
    | strobe v => exact strobeStep_moves v { s with turns := ts }
    | env m => exact movesSequencing_same rfl
    | reset => exact absurd ht (hreset ts)

/-! ### The moves of R260 -/

theorem DState.mayBecome_self (d : DState) : d.mayBecome d := by cases d <;> simp [DState.mayBecome]

theorem Seq.mayBecome_self (q : Seq) : q.mayBecome q := by cases q <;> simp [Seq.mayBecome]

/-- From registers where BEGIN stands at a wait exactly while initializing (R46), every move is one that R260 lists. -/
theorem SequencingMoves.forward {r r' : Sequencing} (h : SequencingMoves r r')
    (hinit : r.seq ≠ .idle ↔ r.dState = .initializing) :
    r.dState.mayBecome r'.dState ∧ r.seq.mayBecome r'.seq ∧ (r'.dState = r.dState → r'.irqEn = r.irqEn) := by
  cases h with
  | stay => exact ⟨r.dState.mayBecome_self, r.seq.mayBecome_self, fun _ => rfl⟩
  | beginA q e =>
    have hidle : q = .idle := by simpa using hinit
    exact ⟨.inr rfl, hidle ▸ .inr rfl, fun _ => rfl⟩
  | wait1 d e => exact ⟨d.mayBecome_self, .inr rfl, fun _ => rfl⟩
  | wait2 d e => exact ⟨d.mayBecome_self, .inr rfl, fun _ => rfl⟩
  | wait3 d e =>
    obtain rfl : d = .initializing := by simpa using hinit
    exact ⟨.inr rfl, .inr rfl, fun heq => nomatch heq⟩
  | stop q e => exact ⟨.inr rfl, q.mayBecome_self, fun heq => nomatch heq⟩

/-- Settles O57, by what a step does to the three registers and the invariant's clause on SEQ. -/
theorem driverStateMovesOnlyForward : Obligations.DriverStateMovesOnlyForward := fun _ s' hinv hreset h =>
  (step_moves hreset s' h).forward hinv.seq_init

end Machine
end Sys2Proof
end

section
/-!
PROOFS. Which handler a delivered code runs, and what H_RXk makes of the state (60_exceptions.md R286, R292).
-/

namespace Sys2Proof
namespace Machine

/-! ### The vector port (R292; 30_encoding.md R107) -/

/-- A delivered code at the head of the turns is the next step, whatever MAIN holds. -/
theorem step_strobe {s : State} {v : BitVec 2} {ts : List Turn} (h : s.turns = .strobe v :: ts) :
    step s = strobeStep v { s with turns := ts } := by
  simp only [step, h, turnStep]

theorem strobeStep_of_ok {v : BitVec 2} {i : Instr} (h : decode (.vector v) = .ok i) (s : State) :
    strobeStep v s = exec i s := by
  rw [strobeStep, h]

theorem strobeStep_reserved (s : State) : strobeStep 3#2 s = .next s := rfl

/-- Settles O7, by the vector decoder. -/
theorem stepRunsTheDeliveredStrobe : Obligations.StepRunsTheDeliveredStrobe := by
  intro s v ts hturns
  rw [step_strobe hturns]
  refine ⟨fun i hi => strobeStep_of_ok hi _, ?_⟩
  rintro rfl
  exact strobeStep_reserved _

/-! ### H_RXk (R286) -/

/-- The frame at the head of FIFO k, decoded (R287). -/
def State.headFrame (s : State) (k : FifoId) : Frame :=
  decodeRx s.cfg.rxLayout s.cfg.wFmi (s.env.rx k).rxs0 (s.env.rx k).rxs1 (s.env.rx k).rxd0 (s.env.rx k).rxd1

/-- RXQk after H_RXk: with a message pending the head frame is appended, or dropped when the queue is full. -/
def State.receivedQueue (s : State) (k : FifoId) : Queue :=
  if (s.env.rx k).fmp then ((s.queue (rxQueueOf k)).append (s.headFrame k)).getD (s.queue (rxQueueOf k))
  else s.queue (rxQueueOf k)

/-- What H_RXk emits: one event for each of the three flags that is set. -/
def RxInputs.emits (x : RxInputs) (k : FifoId) : List Event :=
  (if x.fmp then [.pRxRelease k] else []) ++ (if x.full then [.pClrFull k] else []) ++
    (if x.ovr then [.pClrOvr k] else [])

theorem emitAll_append (s : State) (es es' : List Event) : s.emitAll (es ++ es') = (s.emitAll es).emitAll es' :=
  List.foldl_append

theorem emitAll_if (s : State) (c : Bool) (e : Event) :
    s.emitAll (if c then [e] else []) = if c then s.emit e else s := by
  cases c <;> rfl

/-- The events of H_RXk clear the three flags of its FIFO; a flag that is not set is clear already. -/
theorem emits_clear_flags (e : Env) (k : FifoId) :
    ((e.rx k).emits k).foldl Env.answer e = e.setRx k { e.rx k with fmp := false, full := false, ovr := false } := by
  obtain ⟨_, _, _, _, _, _, ⟨fmp0, full0, ovr0, _, _, _, _⟩, ⟨fmp1, full1, ovr1, _, _, _, _⟩⟩ := e
  cases k with
  | fifo0 => cases fmp0 <;> cases full0 <;> cases ovr0 <;> rfl
  | fifo1 => cases fmp1 <;> cases full1 <;> cases ovr1 <;> rfl

/-- The receive part, with a message pending or without. -/
theorem receivePart_eq (k : FifoId) (s : State) :
    (if (s.env.rx k).fmp then receiveFrame k s else s) =
      (s.setQueue (rxQueueOf k) (s.receivedQueue k)).emitAll (if (s.env.rx k).fmp then [.pRxRelease k] else []) := by
  rw [emitAll_if, State.receivedQueue]
  split
  · rfl
  · exact (setQueue_self s _).symm

/-- H_RXk's body, written out: its queue, its events, the three flags of its FIFO. -/
theorem receiveHandler_eq (k : FifoId) (s : State) :
    receiveHandler k s = { s.setQueue (rxQueueOf k) (s.receivedQueue k) with
      events := s.events ++ (s.env.rx k).emits k
      env := s.env.setRx k { s.env.rx k with fmp := false, full := false, ovr := false } } := by
  have hemit : receiveHandler k s =
      (s.setQueue (rxQueueOf k) (s.receivedQueue k)).emitAll ((s.env.rx k).emits k) := by
    rw [RxInputs.emits, emitAll_append, emitAll_append, ← receivePart_eq, emitAll_if, emitAll_if]
    rfl
  rw [hemit, emitAll_eq, setQueue_events, setQueue_env, emits_clear_flags]

theorem receivedQueue_unchanged {s : State} {k : FifoId}
    (h : (s.env.rx k).fmp = false ∨ (s.queue (rxQueueOf k)).cnt = (s.queue (rxQueueOf k)).cap) :
    s.receivedQueue k = s.queue (rxQueueOf k) := by
  rcases h with hidle | hfull
  · simp [State.receivedQueue, hidle]
  · simp [State.receivedQueue, append_none.2 hfull]

theorem receivedQueue_append {s : State} {k : FifoId} (hfmp : (s.env.rx k).fmp = true)
    (hroom : (s.queue (rxQueueOf k)).cnt ≠ (s.queue (rxQueueOf k)).cap) :
    (s.queue (rxQueueOf k)).append (s.headFrame k) = some (s.receivedQueue k) := by
  cases happ : (s.queue (rxQueueOf k)).append (s.headFrame k) with
  | none => exact absurd (append_none.1 happ) hroom
  | some q' => simp [State.receivedQueue, hfmp, happ]

/-- Settles O48, by the body written out and by what an append does to each slot. -/
theorem receiveHandlerAppendsAndReleases : Obligations.ReceiveHandlerAppendsAndReleases := by
  rintro k s _ _ hgate rfl hwf rfl
  refine ⟨s.receivedQueue k, ?_, receivedQueue_unchanged, fun hfmp hroom => ?_⟩
  · rw [exec_rxIsr, enterHandler_open hgate, receiveHandler_eq, RxInputs.emits, ← List.append_assoc,
      ← List.append_assoc]
  · obtain ⟨-, hcap, hrd, hcnt, hstore, hpeak⟩ := append_cases (receivedQueue_append hfmp hroom)
    refine ⟨hcap, hrd, hcnt, hcnt ▸ hpeak, fun i => ?_⟩
    rw [hstore]
    exact memRead_memWrite _ i _ hwf

end Machine
end Sys2Proof
end

section
/-!
PROOFS. The receive words and the payload bytes (60_exceptions.md R287; 20_memory.md R77).
-/

namespace Sys2Proof
namespace Machine

/-! ### The fields of the default layout (R287; log entry 20)

In the first three proofs `simp` turns bit j of both sides into conditions on j, and `grind` decides them. -/

/-- The extended identifier, put together from its two runs, is bits 31:3 of the first status word. -/
theorem gather_extId (s0 s1 : Word) :
    (gather ({} : RxLayout).extId (s1 ++ s0)).setWidth 29 = s0.extractLsb' 3 29 := by
  ext j hj
  simp [gather]
  grind

/-- The standard identifier is bits 31:21 of the first status word. -/
theorem gather_stdId (s0 s1 : Word) :
    (gather ({} : RxLayout).stdId (s1 ++ s0)).setWidth 29 = (s0.extractLsb' 21 11).setWidth 29 := by
  ext j hj
  simp [gather]
  grind

/-- The length is bits 3:0 of the second status word. -/
theorem gather_len (s0 s1 : Word) : (gather ({} : RxLayout).len (s1 ++ s0)).setWidth 4 = s1.extractLsb' 0 4 := by
  ext j hj
  simp [gather]
  grind

/-- The low 32 bits of the two status words are the first. -/
theorem getLsbD_statusWords (s0 s1 : Word) {j : Nat} (hj : j < 32) : (s1 ++ s0).getLsbD j = s0.getLsbD j := by
  rw [BitVec.getLsbD_append, if_pos hj]

theorem decodeRx_ext (w : Nat) (s0 s1 d0 d1 : Word) : (decodeRx {} w s0 s1 d0 d1).ext = s0.getLsbD 2 :=
  getLsbD_statusWords s0 s1 (by decide)

theorem decodeRx_rtr (w : Nat) (s0 s1 d0 d1 : Word) : (decodeRx {} w s0 s1 d0 d1).rtr = s0.getLsbD 1 :=
  getLsbD_statusWords s0 s1 (by decide)

theorem decodeRx_id (w : Nat) (s0 s1 d0 d1 : Word) :
    (decodeRx {} w s0 s1 d0 d1).id =
      if s0.getLsbD 2 then s0.extractLsb' 3 29 else (s0.extractLsb' 21 11).setWidth 29 := by
  rw [decodeRx, getLsbD_statusWords s0 s1 (by decide)]
  split
  · exact gather_extId s0 s1
  · exact gather_stdId s0 s1

theorem decodeRx_extId {s0 : Word} (h : s0.getLsbD 2 = true) (w : Nat) (s1 d0 d1 : Word) :
    (decodeRx {} w s0 s1 d0 d1).id.toNat = s0.toNat / 2 ^ 3 := by
  rw [decodeRx_id, if_pos h, BitVec.extractLsb'_toNat, Nat.shiftRight_eq_div_pow]
  omega

theorem decodeRx_stdId {s0 : Word} (h : s0.getLsbD 2 = false) (w : Nat) (s1 d0 d1 : Word) :
    (decodeRx {} w s0 s1 d0 d1).id.toNat = s0.toNat / 2 ^ 21 := by
  rw [decodeRx_id, if_neg (Bool.eq_false_iff.1 h), BitVec.toNat_setWidth_of_le (by decide), BitVec.extractLsb'_toNat,
    Nat.shiftRight_eq_div_pow]
  omega

theorem decodeRx_len (w : Nat) (s0 s1 d0 d1 : Word) :
    (decodeRx {} w s0 s1 d0 d1).len.toNat = s1.toNat % 2 ^ 4 := by
  rw [decodeRx, gather_len, BitVec.extractLsb'_toNat, Nat.shiftRight_zero]

/-- The index starts at bit 8 of the second status word, whatever its width (log entry 4). -/
theorem decodeRx_idx (w : Nat) (s0 s1 d0 d1 : Word) :
    (decodeRx {} w s0 s1 d0 d1).idx = s1.toNat / 2 ^ 8 % 2 ^ w := by
  have hshift : (s1 ++ s0).toNat / 2 ^ 40 = s1.toNat / 2 ^ 8 := by
    rw [toNat_append_eq_add]
    omega
  exact congrArg (· % 2 ^ w) hshift

/-! ### The payload bytes (20_memory.md R77; log entry 22) -/

theorem payloadByte_data0 (f : Frame) {n : Nat} (h : n < 4) :
    (payloadByte f n).toNat = f.data0.toNat / 2 ^ (8 * n) % 2 ^ 8 := by
  rw [payloadByte, if_pos h, BitVec.extractLsb'_toNat, Nat.mod_eq_of_lt h, Nat.shiftRight_eq_div_pow]

theorem payloadByte_data1 (f : Frame) {n : Nat} (hlo : 4 ≤ n) (hhi : n < 8) :
    (payloadByte f n).toNat = f.data1.toNat / 2 ^ (8 * (n - 4)) % 2 ^ 8 := by
  have hmod : n % 4 = n - 4 := by omega
  rw [payloadByte, if_neg (Nat.not_lt.2 hlo), BitVec.extractLsb'_toNat, hmod, Nat.shiftRight_eq_div_pow]

/-- Settles O49, field by field. -/
theorem receiveWordsDecodeFieldByField : Obligations.ReceiveWordsDecodeFieldByField :=
  ⟨fun w s0 s1 d0 d1 => ⟨fun h => decodeRx_extId h w s1 d0 d1, fun h => decodeRx_stdId h w s1 d0 d1,
      decodeRx_ext w s0 s1 d0 d1, decodeRx_rtr w s0 s1 d0 d1, decodeRx_len w s0 s1 d0 d1, decodeRx_idx w s0 s1 d0 d1,
      rfl, rfl⟩,
    fun f _ => ⟨payloadByte_data0 f, payloadByte_data1 f⟩⟩

end Machine
end Sys2Proof
end

section
/-!
PROOFS. H_TX: the mailbox that `code` names, and the outcomes of the handler (60_exceptions.md R289, R290).
-/

namespace Sys2Proof
namespace Machine

/-! ### The mailboxes (R290) -/

theorem anyFree_eq_true {e : Env} : e.anyFree = true ↔ e.tme0 = true ∨ e.tme1 = true ∨ e.tme2 = true := by
  simp [Env.anyFree, or_assoc]

theorem anyFree_eq_false {e : Env} : e.anyFree = false ↔ e.tme0 = false ∧ e.tme1 = false ∧ e.tme2 = false := by
  simp [Env.anyFree, and_assoc]

/-- A `code` that names a free mailbox (R290). -/
theorem freeMailbox_of_named {e : Env} {m : Mailbox} (hfree : e.tme m = true)
    (hnamed : (m = .mb0 ∧ e.code = 0) ∨ (m = .mb1 ∧ e.code = 1) ∨ (m = .mb2 ∧ e.code = 2)) :
    e.freeMailbox = some m := by
  rcases hnamed with ⟨rfl, hcode⟩ | ⟨rfl, hcode⟩ | ⟨rfl, hcode⟩ <;> rw [Env.freeMailbox, hcode] <;> exact if_pos hfree

/-- A `code` that names no free mailbox (R290). -/
theorem freeMailbox_of_not_named {e : Env}
    (h : e.code = 3 ∨ (e.code = 0 ∧ e.tme0 = false) ∨ (e.code = 1 ∧ e.tme1 = false) ∨
      (e.code = 2 ∧ e.tme2 = false)) : e.freeMailbox = none := by
  rcases h with hcode | ⟨hcode, hbusy⟩ | ⟨hcode, hbusy⟩ | ⟨hcode, hbusy⟩ <;> rw [Env.freeMailbox, hcode]
  · rfl
  all_goals exact if_neg (by simp [hbusy])

/-! ### The outcomes of H_TX (R289) -/

theorem transmitHandler_clear {s : State} (htxc : s.env.txc = true) (h : s.env.anyFree = false ∨ s.txq.cnt = 0) :
    transmitHandler s =
      .next { s with events := s.events ++ [.pClrTxc], env := { s.env with txc := false } } := by
  rcases transmitHandler_cases s with ⟨hidle, -⟩ | ⟨-, -, hclear⟩ | ⟨-, hany, f, q, hremove, -⟩
  · cases htxc.symm.trans hidle
  · exact hclear
  · rcases h with hnone | hempty
    · cases hany.symm.trans hnone
    · cases (remove_none.2 hempty).symm.trans hremove

theorem transmitHandler_drain {s : State} {m : Mailbox} {f : Frame} {q : Queue} (htxc : s.env.txc = true)
    (hany : s.env.anyFree = true) (hremove : s.txq.remove .txq = some (f, q)) (hm : s.env.freeMailbox = some m) :
    transmitHandler s = .next { s with
      txq := q
      events := s.events ++ [.pMbWrite m f, .pClrTxc]
      env := { s.env.setTme m false with txc := false } } := by
  simp only [transmitHandler, htxc, hany, hremove, hm, emitAll_eq]
  rfl

theorem transmitHandler_badCode {s : State} (htxc : s.env.txc = true) (hany : s.env.anyFree = true)
    (hne : s.txq.cnt ≠ 0) (hm : s.env.freeMailbox = none) : transmitHandler s = .fault .badCode := by
  simp [transmitHandler, htxc, hany, remove_of_cnt_ne_zero hne, hm]

/-- Settles O50, by the four outcomes of H_TX. -/
theorem transmitHandlerDrainsOneFrame : Obligations.TransmitHandlerDrainsOneFrame := by
  intro s hgate
  have hexec : exec .isrTx s = transmitHandler s := enterHandler_open hgate
  rw [hexec]
  refine ⟨transmitHandler_idle, fun htxc h => ?clear,
    fun htxc hfree hne => ⟨fun m hm hnamed hinv => ?drain, fun hbad => ?badCode⟩⟩
  case clear => exact transmitHandler_clear htxc (h.imp_left anyFree_eq_false.2)
  case drain =>
    obtain ⟨f, q', hremove, hcontents, hcap, hpeak, hstore⟩ := exists_remove (id := .txq) hinv hne
    exact ⟨f, q', hcontents, hcap, hpeak, hstore,
      transmitHandler_drain htxc (anyFree_eq_true.2 hfree) hremove (freeMailbox_of_named hm hnamed)⟩
  case badCode => exact transmitHandler_badCode htxc (anyFree_eq_true.2 hfree) hne (freeMailbox_of_not_named hbad)

end Machine
end Sys2Proof
end

section
/-!
PROOFS. What a delivered code touches (60_exceptions.md R285, R295; 20_memory.md R88).
-/

namespace Sys2Proof
namespace Machine

/-! ### What a delivered code makes of the state (R285, R295; 20_memory.md R88) -/

/-- The vector code of H_RXk (30_encoding.md R107). -/
abbrev isrCode (k : FifoId) : BitVec 2 := BitVec.ofNat 2 k.code

theorem isrCode_injective {k k' : FifoId} (h : isrCode k = isrCode k') : k = k' := by
  revert h
  cases k <;> cases k' <;> decide

theorem isrCode_ne_tx (k : FifoId) : isrCode k ≠ 2#2 := by cases k <;> decide

theorem isrCode_ne_reserved (k : FifoId) : isrCode k ≠ 3#2 := by cases k <;> decide

theorem decode_isrCode (k : FifoId) : decode (.vector (isrCode k)) = .ok (rxIsr k) := by cases k <;> rfl

/-- The events of H_RXk. -/
def IsRxEvent (k : FifoId) (e : Event) : Prop := e = .pRxRelease k ∨ e = .pClrFull k ∨ e = .pClrOvr k

/-- The events of H_TX. -/
def IsTxEvent (e : Event) : Prop := e = .pClrTxc ∨ ∃ m f, e = .pMbWrite m f

/-- What the step of a delivered code does to `s`, by the code: nothing; for H_RXk its queue, the inputs of its FIFO and
new events of its own; for H_TX the queue TXQ, `tme[0..2]`, `txc` and new events of its own. -/
inductive StrobeEffect (s : State) : BitVec 2 → State → Prop
  | nothing (v : BitVec 2) : StrobeEffect s v s
  | receive (k : FifoId) (q : Queue) (r : RxInputs) (es : List Event) (hes : ∀ e ∈ es, IsRxEvent k e) :
      StrobeEffect s (isrCode k) { s.setQueue (rxQueueOf k) q with env := s.env.setRx k r, events := s.events ++ es }
  | transmit (q : Queue) (tme0 tme1 tme2 txc : Bool) (es : List Event) (hes : ∀ e ∈ es, IsTxEvent e) :
      StrobeEffect s 2#2 { s with
        txq := q
        env := { s.env with tme0 := tme0, tme1 := tme1, tme2 := tme2, txc := txc }
        events := s.events ++ es }

theorem isRxEvent_of_mem_emits {x : RxInputs} {k : FifoId} {e : Event} (h : e ∈ x.emits k) : IsRxEvent k e := by
  simp only [RxInputs.emits, List.mem_append, List.mem_ite_nil_right, List.mem_singleton] at h
  obtain (⟨-, h⟩ | ⟨-, h⟩) | ⟨-, h⟩ := h
  · exact .inl h
  · exact .inr (.inl h)
  · exact .inr (.inr h)

theorem receiveHandler_effect (k : FifoId) (s : State) : StrobeEffect s (isrCode k) (receiveHandler k s) := by
  rw [receiveHandler_eq]
  exact .receive k _ _ _ fun _ => isRxEvent_of_mem_emits

theorem exec_rxIsr_effect (k : FifoId) (s : State) : Answers (StrobeEffect s (isrCode k)) (exec (rxIsr k) s) := by
  rw [exec_rxIsr]
  exact answers_ite (answers_next (receiveHandler_effect k s)) (answers_next (.nothing _))

/-- Draining one frame is an effect of H_TX, whatever the mailbox. -/
theorem drain_effect (s : State) (q : Queue) (m : Mailbox) (f : Frame) :
    StrobeEffect s 2#2 ((s.setQueue .txq q).emitAll [.pMbWrite m f, .pClrTxc]) := by
  have hes : ∀ e ∈ [Event.pMbWrite m f, .pClrTxc], IsTxEvent e := by simp [IsTxEvent]
  rw [emitAll_eq]
  cases m with
  | mb0 => exact .transmit q false s.env.tme1 s.env.tme2 false _ hes
  | mb1 => exact .transmit q s.env.tme0 false s.env.tme2 false _ hes
  | mb2 => exact .transmit q s.env.tme0 s.env.tme1 false false _ hes

theorem transmitHandler_effect (s : State) : Answers (StrobeEffect s 2#2) (transmitHandler s) := by
  rcases transmitHandler_cases s with ⟨-, h⟩ | ⟨-, -, h⟩ | ⟨-, -, f, q, -, ⟨-, h⟩ | ⟨m, -, h⟩⟩ <;> rw [h]
  · exact answers_next (.nothing _)
  · exact answers_next (.transmit s.txq _ _ _ false [.pClrTxc] (by simp [IsTxEvent]))
  · exact answers_fault _ _
  · exact answers_next (drain_effect s q m f)

/-- A code is a receive handler's, H_TX's or the reserved one. -/
theorem vector_cases (v : BitVec 2) : (∃ k : FifoId, v = isrCode k) ∨ v = 2#2 ∨ v = 3#2 := by
  have hall : ∀ v : BitVec 2, v = 0#2 ∨ v = 1#2 ∨ v = 2#2 ∨ v = 3#2 := by decide
  obtain h | h | h | h := hall v
  · exact .inl ⟨.fifo0, h⟩
  · exact .inl ⟨.fifo1, h⟩
  · exact .inr (.inl h)
  · exact .inr (.inr h)

theorem strobeStep_effect (v : BitVec 2) (s : State) : Answers (StrobeEffect s v) (strobeStep v s) := by
  obtain ⟨k, rfl⟩ | rfl | rfl := vector_cases v
  · rw [strobeStep_of_ok (decode_isrCode k)]
    exact exec_rxIsr_effect k s
  · rw [strobeStep_of_ok (i := .isrTx) rfl]
    exact answers_ite (transmitHandler_effect s) (answers_next (.nothing _))
  · exact answers_next (.nothing _)

/-! ### What the effect leaves alone -/

/-- No effect reaches beyond the queues, the inputs and the events. -/
theorem StrobeEffect.registers {s t : State} {v : BitVec 2} (h : StrobeEffect s v t) :
    ∃ rxq0 rxq1 txq env events,
      t = { s with rxq0 := rxq0, rxq1 := rxq1, txq := txq, env := env, events := events } := by
  cases h with
  | nothing | transmit => exact ⟨_, _, _, _, _, rfl⟩
  | receive k => cases k <;> exact ⟨_, _, _, _, _, rfl⟩

theorem StrobeEffect.fifo0 {s t : State} {v : BitVec 2} (h : StrobeEffect s v t) (hv : v ≠ 0#2) :
    t.rxq0 = s.rxq0 ∧ t.env.fifo0 = s.env.fifo0 := by
  cases h with
  | nothing | transmit => exact ⟨rfl, rfl⟩
  | receive k =>
    cases k with
    | fifo0 => exact absurd rfl hv
    | fifo1 => exact ⟨rfl, rfl⟩

theorem StrobeEffect.fifo1 {s t : State} {v : BitVec 2} (h : StrobeEffect s v t) (hv : v ≠ 1#2) :
    t.rxq1 = s.rxq1 ∧ t.env.fifo1 = s.env.fifo1 := by
  cases h with
  | nothing | transmit => exact ⟨rfl, rfl⟩
  | receive k =>
    cases k with
    | fifo0 => exact ⟨rfl, rfl⟩
    | fifo1 => exact absurd rfl hv

theorem StrobeEffect.tx {s t : State} {v : BitVec 2} (h : StrobeEffect s v t) (hv : v ≠ 2#2) :
    t.txq = s.txq ∧ t.env.tme0 = s.env.tme0 ∧ t.env.tme1 = s.env.tme1 ∧ t.env.tme2 = s.env.tme2 ∧
      t.env.txc = s.env.txc := by
  cases h with
  | nothing => exact ⟨rfl, rfl, rfl, rfl, rfl⟩
  | transmit => exact absurd rfl hv
  | receive k => cases k <;> exact ⟨rfl, rfl, rfl, rfl, rfl⟩

/-- `inak` and `code` are no handler's to change. -/
theorem StrobeEffect.inputs {s t : State} {v : BitVec 2} (h : StrobeEffect s v t) :
    t.env.inak = s.env.inak ∧ t.env.code = s.env.code := by
  cases h with
  | nothing | transmit => exact ⟨rfl, rfl⟩
  | receive k => cases k <;> exact ⟨rfl, rfl⟩

theorem StrobeEffect.events {s t : State} {v : BitVec 2} (h : StrobeEffect s v t) :
    ∃ es, t.events = s.events ++ es ∧ (∀ k : FifoId, v = isrCode k → ∀ e ∈ es, IsRxEvent k e) ∧
      (v = 2#2 → ∀ e ∈ es, IsTxEvent e) ∧ (v = 3#2 → es = []) := by
  cases h with
  | nothing => exact ⟨[], (List.append_nil _).symm, by simp, by simp, fun _ => rfl⟩
  | receive k q r es hes =>
    refine ⟨es, rfl, fun k' hk => ?_, fun hv => absurd hv (isrCode_ne_tx k), fun hv => absurd hv (isrCode_ne_reserved k)⟩
    exact isrCode_injective hk ▸ hes
  | transmit q _ _ _ _ es hes =>
    exact ⟨es, rfl, fun k hk => absurd hk.symm (isrCode_ne_tx k), fun _ => hes, fun hv => absurd hv (by decide)⟩

/-- Settles O58, by the effect of the step each code takes. -/
theorem handlersTouchOnlyTheirQueueAndInputs : Obligations.HandlersTouchOnlyTheirQueueAndInputs := by
  intro s s' v ts hturns h
  rw [step_strobe hturns] at h
  have heffect := strobeStep_effect v _ s' h
  obtain ⟨_, _, _, _, _, rfl⟩ := heffect.registers
  obtain ⟨hinak, hcode⟩ := heffect.inputs
  exact ⟨rfl, rfl, rfl, rfl, rfl, rfl, rfl, rfl, fun k => by cases k <;> exact ⟨rfl, rfl⟩, rfl, rfl, rfl, rfl, rfl, rfl,
    rfl, rfl, heffect.fifo0, heffect.fifo1, heffect.tx, hinak, hcode, heffect.events⟩

end Machine
end Sys2Proof
end

section
/-!
PROOFS. Which steps can be faults (60_exceptions.md R299).
-/

namespace Sys2Proof
namespace Machine

/-! ### Outcomes that are no fault -/

/-- The outcome is no fault. -/
def NoFault (r : Result) : Prop := ∀ f, r ≠ .fault f

theorem noFault_next (t : State) : NoFault (.next t) := fun _ h => nomatch h

theorem noFault_ite {c : Prop} [Decidable c] {r r' : Result} (h : NoFault r) (h' : NoFault r') :
    NoFault (if c then r else r') := by
  split
  · exact h
  · exact h'

/-- A command that has two ends and no fault. -/
theorem noFault_either {c : Prop} [Decidable c] (t t' : State) : NoFault (if c then .next t else .next t') :=
  noFault_ite (noFault_next t) (noFault_next t')

/-! ### Instructions -/

theorem execQappend_noFault (q : QueueId) (s : State) : NoFault (execQappend q s) := by
  refine noFault_ite (noFault_next _) ?_
  split <;> exact noFault_next _

theorem execTset_noFault (f : TField) (v : Nat) (s : State) : NoFault (execTset f v s) := by
  unfold execTset
  split
  · exact noFault_next _
  · exact noFault_either _ _

theorem execSset_noFault (f : SField) (v : Nat) (s : State) : NoFault (execSset f v s) := by
  unfold execSset
  split
  · exact noFault_next _
  · exact noFault_either _ _

/-- TEST answers a busy mailbox itself; with DIRECT_ATOMIC the WRITE of the same step finds the mailbox still free. -/
theorem sendDirect_noFault (m : Mailbox) (f : Frame) (s : State) : NoFault (sendDirect m f s) := by
  cases htme : s.env.tme m with
  | false => exact sendDirect_busy htme ▸ noFault_next _
  | true =>
    cases hatomic : s.cfg.directAtomic with
    | false => exact sendDirect_test htme hatomic ▸ noFault_next _
    | true =>
      rw [sendDirect_atomic htme hatomic, sendWriteStep_free htme]
      exact noFault_next _

theorem execSend_noFault (s : State) : NoFault (execSend s) := by
  refine noFault_ite (noFault_next _) ?_
  split
  · exact noFault_next _
  · exact sendDirect_noFault _ _ s
  · exact sendDirect_noFault _ _ s
  · exact noFault_next _

/-- With an honest `code` H_TX finds the mailbox it needs. -/
theorem transmitHandler_noFault {s : State} (hcode : s.env.codeNamesFree) : NoFault (transmitHandler s) := by
  rcases transmitHandler_cases s with ⟨-, h⟩ | ⟨-, -, h⟩ | ⟨-, hany, f, q, -, ⟨hm, -⟩ | ⟨m, -, h⟩⟩
  · exact h ▸ noFault_next _
  · exact h ▸ noFault_next _
  · exact absurd hm (hcode hany)
  · exact h ▸ noFault_next _

theorem exec_noFault {s : State} (hcode : s.env.codeNamesFree) (i : Instr) : NoFault (exec i s) := by
  cases i with
  | qappend q => exact execQappend_noFault q s
  | tset f v => exact execTset_noFault f v s
  | sset f v => exact execSset_noFault f v s
  | send => exact execSend_noFault s
  | isrTx => exact noFault_ite (transmitHandler_noFault hcode) (noFault_next _)
  | qinit q n => exact noFault_ite (noFault_next _) (noFault_either _ _)
  | drvBegin => exact noFault_ite (noFault_next _) (noFault_either _ _)
  | qremove | qfree | resolve | trate | tppm | fget | drvEnd | recv0 | recv1 | disp0 | disp1 | disp | avail0 | avail1
  | isrRx0 | isrRx1 => exact noFault_either _ _
  | qrstpeak | qcount | qpeak | qcap | tget | tcheck | texact | tsample | sget | fstdmask | fstdquad | fextmask | fextdual
  | fcount | dstate => exact noFault_next _

/-! ### Steps -/

/-- Of the later steps of a command only WRITE of a direct SEND can be a fault. -/
theorem continueMain_noFault {s : State} (hop : ∀ m f, s.op ≠ .sendWrite m f) : NoFault (continueMain s) := by
  unfold continueMain
  split
  · exact noFault_either _ _
  · exact noFault_either _ _
  · exact noFault_either _ _
  · split
    · exact noFault_next _
    · next m f hwrite => exact absurd hwrite (hop m f)
    · exact noFault_next _
    · exact noFault_next _

theorem hostStep_noFault {s : State} (hcode : s.env.codeNamesFree) (a : HostAction) : NoFault (hostStep a s) := by
  cases a with
  | read reg => exact noFault_next _
  | write reg w =>
    refine noFault_ite ?_ (noFault_next _)
    rcases runCommand_cases w s with ⟨_, -, h⟩ | ⟨i, -, h⟩ <;> rw [h]
    · exact noFault_next _
    · exact exec_noFault hcode i

theorem mainStep_noFault {s : State} (hcode : s.env.codeNamesFree) (hop : ∀ m f, s.op ≠ .sendWrite m f) :
    NoFault (mainStep s) := by
  rcases mainStep_cases s with ⟨-, h⟩ | ⟨-, -, h⟩ | ⟨-, a, hs, -, h⟩ <;> rw [h]
  · exact continueMain_noFault hop
  · exact noFault_next _
  · exact hostStep_noFault (s := { s with host := hs }) hcode a

theorem strobeStep_noFault {s : State} (hcode : s.env.codeNamesFree) (v : BitVec 2) : NoFault (strobeStep v s) := by
  unfold strobeStep
  split
  · exact noFault_next _
  · exact exec_noFault hcode _

/-- Settles O56: with DIRECT_ATOMIC the invariant leaves MAIN no pending WRITE, and an honest `code` leaves H_TX a
mailbox. -/
theorem noFaultWithAtomicSendsAndAnHonestCode : Obligations.NoFaultWithAtomicSendsAndAnHonestCode := by
  intro s r hinv hatomic hcode
  have hop := hinv.op_atomic hatomic
  suffices hstep : NoFault (step s) from hstep r
  rcases step_cases s with ⟨-, h⟩ | ⟨t, ts, -, h⟩ <;> rw [h]
  · exact mainStep_noFault hcode hop
  · cases t with
    | main => exact mainStep_noFault (s := { s with turns := ts }) hcode hop
    | strobe v => exact strobeStep_noFault (s := { s with turns := ts }) hcode v
    | env m => exact noFault_next _
    | reset => exact noFault_next _

end Machine
end Sys2Proof
end

section
/-!
PROOFS. The refusal table (60_exceptions.md R284).
-/

namespace Sys2Proof
namespace Machine

/-- A size above QMAX is refused in every D_STATE. -/
theorem execQinit_tooBig {s : State} {n : Nat} (h : s.cfg.qmax < n) (q : QueueId) :
    exec (.qinit q n) s = .next { s with status := Status.afterRefusal } := by
  have hbig : exec (.qinit q n) s = if !s.queuesFree then .next (s.refuse .owned) else .next (s.refuse .tooBig) :=
    if_congr Iff.rfl rfl (if_pos h)
  rw [hbig]
  split <;> rfl

theorem execBegin_refused {s : State} (h : s.dState ≠ .uninitialized) :
    exec .drvBegin s = .next { s with status := Status.afterRefusal } := if_pos h

theorem runningOnly_refused {s : State} (h : s.dState ≠ .running) {i : Instr} (hi : i ∈ runningOnly) :
    exec i s = .next { s with status := Status.afterRefusal } := by
  simp only [runningOnly, List.mem_cons, List.not_mem_nil, or_false] at hi
  rcases hi with rfl | rfl | rfl | rfl | rfl | rfl | rfl | rfl | rfl <;> exact refused_of_not_running h _

/-- Settles O35, row by row. -/
theorem refusedCommandsChangeOnlyStatus : Obligations.RefusedCommandsChangeOnlyStatus := by
  refine fun s q n v f => ⟨fun hown => ?owned, fun hbig => execQinit_tooBig hbig q, fun hrate => ?zeroRate, rfl,
    fun hbig => ?timingRange, fun hbig => execTset_refused rfl hbig s, ?readOnly, fun hbig => ?size,
    fun hbig => execSset_refused rfl hbig, fun hbig => ?flag, fun hbrp => if_pos hbrp, fun hzero => if_pos hzero,
    fun what hi => execFget_refused hi, execBegin_refused, fun hstate i hi => runningOnly_refused hstate hi⟩
  case owned => rintro i (rfl | rfl | rfl | rfl) <;> exact refused_of_owned hown _
  case zeroRate => exact if_pos ((arg_eq_getElem s (by decide)).trans hrate)
  case timingRange =>
    have hflag : 1 < v := by omega
    rintro g (rfl | rfl | rfl | rfl)
    · exact execTset_refused rfl hbig s
    · exact execTset_refused rfl hbig s
    · exact execTset_refused rfl hbig s
    · exact execTset_refused rfl hflag s
  case readOnly => rintro (rfl | rfl) <;> rfl
  case size =>
    have hmin : min 65535 s.cfg.qmax < v := lt_of_le_of_lt (min_le_right _ _) hbig
    rintro (rfl | rfl | rfl) <;> exact execSset_refused rfl hmin
  case flag => rintro (rfl | rfl) <;> exact execSset_refused rfl hbig

end Machine
end Sys2Proof
end

section
/-!
PROOFS. Reset meets the invariant (70_reset_and_hazards.md R320 to R322, R353), and BEGIN at a wait that is not answered
(R331).
-/

namespace Sys2Proof
namespace Machine

/-! ### Reset (R320 to R322) -/

theorem emptyBank_inv : FilterBank.empty.Inv where
  count_le := by decide
  w1_zero := fun i _ => getD_replicate_zero 14 i
  w2_zero := fun i _ => getD_replicate_zero 14 i
  bits_zero := by simp [FilterBank.empty]

theorem resetWith_inv {c : Config} (hc : c.wf) : (State.resetWith c).Inv where
  cfg_wf := hc
  queues := fun q => by cases q <;> exact unallocated_inv
  queue_fits := fun q => by cases q <;> exact unallocated_fits c
  bank := emptyBank_inv
  cb_len := fun k => by cases k <;> rfl
  cb := fun k => by cases k <;> exact empty_callbacks_inv c
  dcb := fun k => by cases k <;> exact empty_callbacks_inv c
  sizes := ⟨Nat.zero_le _, Nat.zero_le _, Nat.zero_le _⟩
  seq_init := by simp [State.resetWith]
  gate := rfl
  op_running := fun h => absurd rfl h
  op_mailbox := fun _ => nofun
  op_atomic := fun _ _ _ => nofun
  op_fits := fun _ => nofun
  tx_empty := fun _ => rfl

/-- Settles O53, field by field of the reset state; the parameters at power-on are consistent. -/
theorem resetMeetsTheInvariant : Obligations.ResetMeetsTheInvariant :=
  ⟨resetWith_inv atReset_wf, fun _ => resetWith_inv⟩

/-- Settles O9: a reset turn is the model's own reset, on the state without that turn. -/
theorem resetTurnRestoresEveryRegister : Obligations.ResetTurnRestoresEveryRegister := by
  intro s ts hturns
  rw [step, hturns]
  rfl

/-! ### BEGIN at a wait (R331; log entry 14) -/

/-- MAIN stands at a wait of BEGIN whose condition does not hold. -/
def State.waitsUnanswered (s : State) : Prop :=
  (s.seq = .enterConfig ∧ s.env.inak = false) ∨ (s.seq = .leaveConfig ∧ s.env.inak = true) ∨
    (s.seq = .mailbox0 ∧ s.env.tme0 = false)

theorem mainStep_waitsUnanswered {s : State} (h : s.waitsUnanswered) : mainStep s = .next s := by
  have hbusy : s.busy = true := by
    rcases h with ⟨hseq, -⟩ | ⟨hseq, -⟩ | ⟨hseq, -⟩ <;> simp [State.busy, hseq]
  rw [mainStep, if_pos hbusy, continueMain]
  rcases h with ⟨hseq, hin⟩ | ⟨hseq, hin⟩ | ⟨hseq, hin⟩ <;> simp [hseq, hin]

/-- Settles O39: MAIN's step leaves the state as it is, the turn it used apart. -/
theorem beginHoldsAtAnUnansweredWait : Obligations.BeginHoldsAtAnUnansweredWait := by
  refine fun s hwait => ⟨fun ts hturns => ?turn, fun hturns => ?noTurn⟩
  case turn =>
    rw [step_mainNext (.inl hturns)]
    exact mainStep_waitsUnanswered (s := { s with turns := ts }) hwait
  case noTurn =>
    rw [step, hturns]
    exact mainStep_waitsUnanswered hwait

end Machine
end Sys2Proof
end

section
/-!
PROOFS. Every step keeps the invariant, whoever takes it (70_reset_and_hazards.md R353). A state that differs only in what
the invariant does not read (the schedule, the inputs, the traces, the host's registers) meets it by `{ hs with }`.
-/

namespace Sys2Proof
namespace Machine

/-! ### Outcomes behind a check -/

theorem answers_cond {P : State → Prop} {c : Prop} [Decidable c] {r r' : Result} (h : c → Answers P r)
    (h' : ¬ c → Answers P r') : Answers P (if c then r else r') := by
  split
  · exact h ‹_›
  · exact h' ‹_›

/-- A command behind the ownership check (41_frame_queue.md R141): refused, or BEGIN is not in progress. -/
theorem answers_ifFree {P : State → Prop} {s : State} {r : Result} (hrefuse : ∀ w, P (s.refuse w))
    (h : s.dState ≠ .initializing → Answers P r) : Answers P (if !s.queuesFree then .next (s.refuse .owned) else r) :=
  answers_cond (fun _ => answers_next (hrefuse _)) fun hfree => h (free_not_init (by simpa using hfree))

/-- A command behind the admission check (44_driver.md R260): refused, or the driver is running. -/
theorem answers_ifRunning {P : State → Prop} {s : State} {r : Result} (hrefuse : ∀ w, P (s.refuse w))
    (h : s.dState = .running → Answers P r) : Answers P (if !s.isRunning then .next (s.refuse .state) else r) :=
  answers_cond (fun _ => answers_next (hrefuse _)) fun hrun => h (running_of hrun)

/-! ### Commands that write result, timing and settings registers alone -/

/-- The three queue sizes in the settings are at most `qmax` (41_frame_queue.md R141). -/
def Settings.SizesWithin (qmax : Nat) (g : Settings) : Prop :=
  g.rx0sz.toNat ≤ qmax ∧ g.rx1sz.toNat ≤ qmax ∧ g.txsz.toNat ≤ qmax

/-- From `s` to `t` only STATUS, RES, the timing registers and the settings change, sizes within QMAX staying so. -/
def RegistersOnly (s t : State) : Prop :=
  ∃ status res timing settings, t = { s with status := status, res := res, timing := timing, settings := settings } ∧
    (s.settings.SizesWithin s.cfg.qmax → settings.SizesWithin s.cfg.qmax)

/-- The commands that write no other register. -/
def isRegisterCommand : Instr → Bool
  | .qcount _ | .qpeak _ | .qcap _ | .resolve | .tset _ _ | .tget _ | .tcheck | .trate | .texact | .tppm | .tsample
  | .sset _ _ | .sget _ | .fcount | .fget _ _ | .avail0 | .avail1 | .dstate => true
  | _ => false

theorem registersOnly_refuse (s : State) (w : RefusedBecause) : RegistersOnly s (s.refuse w) :=
  ⟨_, _, _, _, rfl, id⟩

theorem registersOnly_finish (s : State) (ok fv : Bool) (r : BitVec 64) : RegistersOnly s (s.finish ok fv r) :=
  ⟨_, _, _, _, rfl, id⟩

/-- A value SSET admits leaves the sizes within QMAX (42_bit_timing.md R182). -/
theorem sizesWithin_set {qmax v hi : Nat} {f : SField} {g : Settings} (hlimit : settingLimit qmax f = some hi)
    (hv : v ≤ hi) (hg : g.SizesWithin qmax) : (g.set v f).SizesWithin qmax := by
  obtain ⟨h0, h1, ht⟩ := hg
  have hsize {m : Nat} (h : some (min 65535 qmax) = some m) (hm : v ≤ m) : (BitVec.ofNat 16 v).toNat ≤ qmax := by
    cases h
    exact (Nat.mod_le _ _).trans (hm.trans (min_le_right _ _))
  cases f with
  | rx0sz => exact ⟨hsize hlimit hv, h1, ht⟩
  | rx1sz => exact ⟨h0, hsize hlimit hv, ht⟩
  | txsz => exact ⟨h0, h1, hsize hlimit hv⟩
  | mode | txprio | oc | rate | tol => exact ⟨h0, h1, ht⟩

theorem execTset_registersOnly (f : TField) (v : Nat) (s : State) : Answers (RegistersOnly s) (execTset f v s) := by
  unfold execTset
  split
  · exact answers_next (registersOnly_refuse s _)
  · exact answers_ite (answers_next (registersOnly_refuse s _)) (answers_next ⟨_, _, _, _, rfl, id⟩)

theorem execSset_registersOnly (f : SField) (v : Nat) (s : State) : Answers (RegistersOnly s) (execSset f v s) := by
  unfold execSset
  split
  · exact answers_next (registersOnly_refuse s _)
  · next hi hlimit =>
    exact answers_cond (fun _ => answers_next (registersOnly_refuse s _)) fun hv =>
      answers_next ⟨_, _, _, _, rfl, sizesWithin_set hlimit (Nat.le_of_not_lt hv)⟩

theorem exec_registersOnly {i : Instr} (hi : isRegisterCommand i = true) (s : State) :
    Answers (RegistersOnly s) (exec i s) := by
  have hrefuse (w : RefusedBecause) : Answers (RegistersOnly s) (.next (s.refuse w)) :=
    answers_next (registersOnly_refuse s w)
  have hfinish (ok : Bool) (r : BitVec 64) : Answers (RegistersOnly s) (.next (s.finish ok false r)) :=
    answers_next (registersOnly_finish s ok false r)
  cases i with
  | qcount | qpeak | qcap | tget | tcheck | texact | tsample | sget | fcount | dstate => exact hfinish _ _
  | trate | tppm | avail0 | avail1 => exact answers_ite (hrefuse _) (hfinish _ _)
  | fget => exact answers_ite (hfinish _ _) (hrefuse _)
  | resolve => exact answers_ite (hrefuse _) (answers_next ⟨_, _, _, _, rfl, id⟩)
  | tset f v => exact execTset_registersOnly f v s
  | sset f v => exact execSset_registersOnly f v s
  | _ => exact nomatch hi

theorem RegistersOnly.inv {s t : State} (h : RegistersOnly s t) (hs : s.Inv) : t.Inv := by
  obtain ⟨_, _, _, _, rfl, hsizes⟩ := h
  exact { hs with sizes := hsizes hs.sizes }

/-! ### Queue commands -/

/-- TXQ is empty during BEGIN, so nothing is removed from it then. -/
theorem setQueue_remove_inv {s : State} {id : QueueId} {f : Frame} {q : Queue} (hs : s.Inv)
    (h : (s.queue id).remove id = some (f, q)) : (s.setQueue id q).Inv := by
  refine setQueue_inv' hs (remove_inv (hs.queues id) h) (remove_fits (hs.queues id) (hs.queue_fits id) h).1 ?_
  rintro rfl hinit
  obtain ⟨hne, -⟩ := remove_cases h
  exact absurd (hs.tx_empty hinit) hne

theorem setQueue_resetPeak_inv {s : State} (hs : s.Inv) (id : QueueId) : (s.setQueue id (s.queue id).resetPeak).Inv := by
  have hfits := hs.queue_fits id
  refine setQueue_inv' hs (resetPeak_inv (hs.queues id)) ⟨hfits.cap_lt, hfits.idx_lt⟩ ?_
  rintro rfl hinit
  exact hs.tx_empty hinit

theorem execQinit_inv {s : State} (hs : s.Inv) (q : QueueId) (n : Nat) : Answers State.Inv (execQinit q n s) :=
  answers_ifFree (fun _ => refuse_inv hs) fun hne => answers_ite (answers_next (refuse_inv hs)) <| answers_next <|
    finish_inv (setQueue_inv' hs (init_inv _) (init_fits s.cfg n) fun _ hinit => absurd hinit hne)

theorem execQappend_inv {s : State} (hs : s.Inv) (q : QueueId) : Answers State.Inv (execQappend q s) := by
  refine answers_ifFree (fun _ => refuse_inv hs) fun hne => ?_
  split
  · exact answers_next (finish_inv hs)
  · next q' happ =>
    exact answers_next (finish_inv (setQueue_inv' hs (append_inv (hs.queues q) happ)
      (append_fits (hs.queue_fits q) (operandFrame_idx_lt s) happ) fun _ hinit => absurd hinit hne))

theorem execQfree_inv {s : State} (hs : s.Inv) (q : QueueId) : Answers State.Inv (execQfree q s) :=
  answers_ifFree (fun _ => refuse_inv hs) fun hne => answers_next <|
    finish_inv (setQueue_inv' hs unallocated_inv (unallocated_fits s.cfg) fun _ hinit => absurd hinit hne)

/-! ### Driver commands -/

theorem callbackArg_lt (s : State) (i : Nat) : s.callbackArg i < 2 ^ s.cfg.wCb := fit_lt _ _

/-- Step A of BEGIN: three empty queues, the callback arrays copied, wait 1 entered (44_driver.md R242, R243). -/
theorem beginStepA_inv {s : State} (hs : s.Inv) (hstate : s.dState = .uninitialized) : (beginStepA s).Inv := by
  have hop : s.op = .idle := by
    by_contra hne
    cases hstate.symm.trans (hs.op_running hne)
  have hgate : s.irqEn = 0 := by simpa [hstate] using hs.gate
  rw [beginStepA_eq]
  exact { hs with
    queues := fun q => by cases q <;> exact init_inv _
    queue_fits := fun q => by cases q <;> exact init_fits s.cfg _
    dcb := fun k => by cases k; exacts [hs.cb .fifo0, hs.cb .fifo1]
    seq_init := by simp
    gate := hgate
    op_running := fun hne => absurd hop hne
    tx_empty := fun _ => rfl }

theorem execBegin_inv {s : State} (hs : s.Inv) : Answers State.Inv (execBegin s) :=
  answers_cond (fun _ => answers_next (refuse_inv hs)) fun hstate =>
    answers_ite (answers_next (finish_inv hs)) (answers_next (beginStepA_inv hs (not_not.1 hstate)))

/-- END stops a driver that holds no frame between two steps (44_driver.md R248). -/
theorem execEnd_inv {s : State} (hs : s.Inv) (hop : s.op = .idle) : Answers State.Inv (execEnd s) := by
  refine answers_ifRunning (fun _ => refuse_inv hs) fun hrun => answers_next (finish_inv ?_)
  have hseq : s.seq = .idle := by simpa [hrun] using hs.seq_init
  exact { hs with
    queues := fun q => by cases q <;> exact unallocated_inv
    queue_fits := fun q => by cases q <;> exact unallocated_fits s.cfg
    seq_init := by simp [hseq]
    gate := rfl
    op_running := fun hne => absurd hop hne
    tx_empty := fun _ => rfl }

theorem execSend_inv {s : State} (hs : s.Inv) : Answers State.Inv (execSend s) := by
  refine answers_ifRunning (fun _ => refuse_inv hs) fun hrun => ?_
  have hidx := operandFrame_idx_lt s
  split
  · exact answers_next (sendQueued_inv hs hrun hidx)
  · exact fun _ h => sendDirect_inv hs (by decide) hrun hidx h
  · exact fun _ h => sendDirect_inv hs (by decide) hrun hidx h
  · exact answers_next (sendCode_inv hs)

/-- RECVk: what QREMOVE does to the receive queue, while running (44_driver.md R254). -/
theorem recv_inv {s : State} (hs : s.Inv) (q : QueueId) :
    Answers State.Inv (if !s.isRunning then .next (s.refuse .state) else .next (removeToFres q s)) :=
  answers_ifRunning (fun _ => refuse_inv hs) fun hrun => answers_next (removeToFres_inv hs (by simp [hrun]))

theorem dispatched_inv {s : State} (hs : s.Inv) (ok : Bool) : (s.dispatched ok).Inv := finish_inv (opIdle_inv hs)

theorem dispSecond_inv {s : State} (hs : s.Inv) (hrun : s.dState = .running) (yielded : Bool) :
    ({ s with op := .dispSecond yielded } : State).Inv :=
  setOp_inv hs hrun (fun _ => nofun) (fun _ _ _ => nofun) fun _ => nofun

theorem invoke_inv {s : State} (hs : s.Inv) (k : FifoId) (f : Frame) : (s.invoke k f).Inv := by
  unfold State.invoke
  split
  · exact hs
  · exact emit_inv hs

/-- A dispatch command: POP while running (44_driver.md R255, R257). -/
theorem disp_inv {s : State} (hs : s.Inv) (k : FifoId) (combined : Bool) {onEmpty : State → State}
    (hempty : s.dState = .running → (onEmpty s).Inv) :
    Answers State.Inv
      (if !s.isRunning then .next (s.refuse .state) else .next (dispatchPop k combined onEmpty s)) :=
  answers_ifRunning (fun _ => refuse_inv hs) fun hrun => answers_next (dispatchPop_inv hs hrun (hempty hrun))

/-! ### Handlers -/

theorem exec_rxIsr_inv {s : State} (hs : s.Inv) (k : FifoId) : Answers State.Inv (exec (rxIsr k) s) := by
  rw [exec_rxIsr]
  exact answers_ite (answers_next (receiveHandler_inv hs)) (answers_next hs)

theorem transmitHandler_inv {s : State} (hs : s.Inv) : Answers State.Inv (transmitHandler s) := by
  rcases transmitHandler_cases s with ⟨-, h⟩ | ⟨-, -, h⟩ | ⟨-, -, f, q, hremove, ⟨-, h⟩ | ⟨m, -, h⟩⟩ <;> rw [h]
  · exact answers_next hs
  · exact answers_next (emit_inv hs)
  · exact answers_fault _ _
  · exact answers_next (emitAll_inv (setQueue_remove_inv hs hremove))

theorem exec_isrTx_inv {s : State} (hs : s.Inv) : Answers State.Inv (exec .isrTx s) :=
  answers_ite (transmitHandler_inv hs) (answers_next hs)

/-! ### Steps -/

/-- An instruction keeps the invariant; END alone needs that MAIN holds no frame. -/
theorem exec_inv {s : State} (hs : s.Inv) (hop : s.op = .idle) (i : Instr) : Answers State.Inv (exec i s) := by
  cases i with
  | qinit q n => exact execQinit_inv hs q n
  | qappend q => exact execQappend_inv hs q
  | qremove q => exact answers_ifFree (fun _ => refuse_inv hs) fun hne => answers_next (removeToFres_inv hs hne)
  | qfree q => exact execQfree_inv hs q
  | qrstpeak q => exact answers_next (finish_inv (setQueue_resetPeak_inv hs q))
  | qcount | qpeak | qcap | resolve | tset | tget | tcheck | trate | texact | tppm | tsample | sset | sget | fcount | fget
  | avail0 | avail1 | dstate => exact fun t h => (exec_registersOnly rfl s t h).inv hs
  | fstdmask | fstdquad | fextmask | fextdual =>
    exact answers_next (filterCommand_inv hs rfl (by simp [Slot.of, callbackArg_lt]))
  | drvBegin => exact execBegin_inv hs
  | drvEnd => exact execEnd_inv hs hop
  | send => exact execSend_inv hs
  | recv0 | recv1 => exact recv_inv hs _
  | disp0 | disp1 => exact disp_inv hs _ false fun _ => dispatched_inv hs false
  | disp => exact disp_inv hs .fifo0 true fun hrun => dispSecond_inv hs hrun false
  | isrRx0 => exact exec_rxIsr_inv hs .fifo0
  | isrRx1 => exact exec_rxIsr_inv hs .fifo1
  | isrTx => exact exec_isrTx_inv hs

/-- The exit of wait 3: the driver runs, with all three handler gates set (44_driver.md R247). -/
theorem beginStepC_inv {s : State} (hs : s.Inv) : (beginStepC s).Inv :=
  finish_inv { hs with
    seq_init := by simp
    gate := rfl
    op_running := fun _ => rfl
    tx_empty := nofun }

/-- From one wait of BEGIN to the next. -/
theorem setSeq_inv {s : State} (hs : s.Inv) {q : Seq} (hseq : s.seq ≠ .idle) (hq : q ≠ .idle) :
    ({ s with seq := q } : State).Inv :=
  { hs with seq_init := by simp [hq, hs.seq_init.1 hseq] }

theorem dispatchCall_inv {s : State} (hs : s.Inv) (hrun : s.dState = .running) (k : FifoId) (f : Frame)
    (combined : Bool) : (dispatchCall k f combined s).Inv := by
  have hinvoke := invoke_inv hs k f
  unfold dispatchCall
  split
  · refine dispSecond_inv hinvoke ?_ true
    rw [State.invoke]
    split <;> exact hrun
  · exact dispatched_inv hinvoke true

theorem continueMain_inv {s : State} (hs : s.Inv) : Answers State.Inv (continueMain s) := by
  unfold continueMain
  split
  · next hseq =>
    exact answers_ite (answers_next (setSeq_inv (emitAll_inv hs) (by simp [hseq]) (by decide))) (answers_next hs)
  · next hseq => exact answers_ite (answers_next hs) (answers_next (setSeq_inv hs (by simp [hseq]) (by decide)))
  · exact answers_ite (answers_next (beginStepC_inv hs)) (answers_next hs)
  · split
    · exact answers_next hs
    · exact fun _ h => sendWriteStep_inv hs h
    · next hop => exact answers_next (dispatchCall_inv hs (hs.op_running (by simp [hop])) _ _ _)
    · next hop =>
      exact answers_next (dispatchPop_inv hs (hs.op_running (by simp [hop])) (dispatched_inv hs _))

theorem hostWriteReg_same (s : State) (reg : Nat) (w : Word) : Same s (s.hostWriteReg reg w) := by
  unfold State.hostWriteReg
  split
  · exact Same.refl s
  · split <;> exact Same.refl s

theorem hostStep_inv {s : State} (hs : s.Inv) (hop : s.op = .idle) (a : HostAction) :
    Answers State.Inv (hostStep a s) := by
  cases a with
  | read reg => exact answers_next { hs with }
  | write reg w =>
    refine answers_ite ?_ (answers_next ((hostWriteReg_same s reg w).inv hs))
    rcases runCommand_cases w s with ⟨_, -, h⟩ | ⟨i, -, h⟩ <;> rw [h]
    · exact answers_next ((same_illegal s).inv hs)
    · exact exec_inv hs hop i

theorem mainStep_inv {s : State} (hs : s.Inv) : Answers State.Inv (mainStep s) := by
  rcases mainStep_cases s with ⟨-, h⟩ | ⟨-, -, h⟩ | ⟨hbusy, a, hs', -, h⟩ <;> rw [h]
  · exact continueMain_inv hs
  · exact answers_next hs
  · exact hostStep_inv (s := { s with host := hs' }) { hs with } (busy_eq_false.1 hbusy).2 a

theorem strobeStep_inv {s : State} (hs : s.Inv) (v : BitVec 2) : Answers State.Inv (strobeStep v s) := by
  unfold strobeStep
  split
  · exact answers_next hs
  · next hi =>
    rcases decode_vector_isr hi with ⟨k, rfl⟩ | rfl
    · exact exec_rxIsr_inv hs k
    · exact exec_isrTx_inv hs

/-- Settles O54, by what each agent's step does to the invariant. -/
theorem everyStepKeepsTheInvariant : Obligations.EveryStepKeepsTheInvariant := by
  intro s s' hs
  suffices hstep : Answers State.Inv (step s) from hstep s'
  rcases step_cases s with ⟨-, h⟩ | ⟨t, ts, -, h⟩ <;> rw [h]
  · exact mainStep_inv hs
  · have hturn : ({ s with turns := ts } : State).Inv := { hs with }
    cases t with
    | main => exact mainStep_inv hturn
    | strobe v => exact strobeStep_inv hturn v
    | env m => exact answers_next { hs with }
    | reset => exact answers_next { resetWith_inv hs.cfg_wf with }

end Machine
end Sys2Proof
end

section
/-!
PROOFS. No step strands a queued frame (70_reset_and_hazards.md R344). The invariant gives two of its facts: TXQ is empty
when BEGIN completes, and ENV has no free hand over the inputs while the driver runs (10_state.md R51 a, log entry 6).
-/

namespace Sys2Proof
namespace Machine

/-! ### Four grounds for a frame not to be stranded -/

theorem notStranded_of_not_running {s : State} (h : s.dState ≠ .running) : s.NotStranded := fun hrun => absurd hrun h

theorem notStranded_of_empty {s : State} (h : s.txq.cnt = 0) : s.NotStranded := fun _ hne => absurd h hne

theorem notStranded_of_pending {s : State} (h : s.env.txc = true) : s.NotStranded :=
  fun _ _ => .inr (.inr (.inr h))

theorem notStranded_of_busy {s : State} {m : Mailbox} (h : s.env.tme m = false) : s.NotStranded := fun _ _ => by
  cases m with
  | mb0 => exact .inl h
  | mb1 => exact .inr (.inl h)
  | mb2 => exact .inr (.inr (.inl h))

/-! ### Operations that touch nothing R344 speaks of -/

/-- Two states agree on D_STATE, the number of queued frames, the mailboxes and the completion flag. -/
def SameTx (s t : State) : Prop :=
  t.dState = s.dState ∧ t.txq.cnt = s.txq.cnt ∧ (∀ m, t.env.tme m = s.env.tme m) ∧ t.env.txc = s.env.txc

theorem SameTx.refl (s : State) : SameTx s s := ⟨rfl, rfl, fun _ => rfl, rfl⟩

theorem SameTx.notStranded {s t : State} (h : SameTx s t) (hs : s.NotStranded) : t.NotStranded := by
  obtain ⟨hstate, hcnt, htme, htxc⟩ := h
  intro hrun hne
  rw [show t.env.tme0 = s.env.tme0 from htme .mb0, show t.env.tme1 = s.env.tme1 from htme .mb1,
    show t.env.tme2 = s.env.tme2 from htme .mb2, htxc]
  exact hs (hstate ▸ hrun) (hcnt ▸ hne)

theorem RegistersOnly.sameTx {s t : State} (h : RegistersOnly s t) : SameTx s t := by
  obtain ⟨_, _, _, _, rfl, -⟩ := h
  exact SameTx.refl s

theorem setQueue_rx_sameTx (s : State) (k : FifoId) (q : Queue) : SameTx s (s.setQueue (rxQueueOf k) q) := by
  cases k <;> exact SameTx.refl s

theorem setQueue_resetPeak_sameTx (s : State) (id : QueueId) : SameTx s (s.setQueue id (s.queue id).resetPeak) := by
  cases id <;> exact SameTx.refl s

theorem setRx_sameTx (s : State) (k : FifoId) (r : RxInputs) : SameTx s { s with env := s.env.setRx k r } :=
  ⟨rfl, rfl, fun m => Env.setRx_tme s.env k r m, Env.setRx_txc s.env k r⟩

theorem filterCommand_sameTx (k : FifoId) (argsOk : Bool) (x : Slot) (s : State) :
    SameTx s (filterCommand k argsOk x s) := by
  unfold filterCommand
  split
  · exact SameTx.refl s
  · cases k <;> exact SameTx.refl s

theorem recv_sameTx (k : FifoId) (s : State) : SameTx s (removeToFres (rxQueueOf k) s) := by
  unfold removeToFres
  split
  · exact SameTx.refl s
  · exact setQueue_rx_sameTx s k _

theorem dispatchPop_sameTx {k : FifoId} {combined : Bool} {onEmpty : State → State} {s : State}
    (h : SameTx s (onEmpty s)) : SameTx s (dispatchPop k combined onEmpty s) := by
  unfold dispatchPop
  split
  · exact h
  · exact setQueue_rx_sameTx s k _

theorem dispatchCall_sameTx (k : FifoId) (f : Frame) (combined : Bool) (s : State) :
    SameTx s (dispatchCall k f combined s) := by
  have hinvoke : SameTx s (s.invoke k f) := by
    rw [invoke_eq]
    exact SameTx.refl s
  unfold dispatchCall
  split <;> exact hinvoke

theorem receiveHandler_sameTx (k : FifoId) (s : State) : SameTx s (receiveHandler k s) := by
  rw [receiveHandler_eq]
  cases k <;> exact setRx_sameTx s _ _

theorem hostWriteReg_sameTx (s : State) (reg : Nat) (w : Word) : SameTx s (s.hostWriteReg reg w) := by
  unfold State.hostWriteReg
  split
  · exact SameTx.refl s
  · split <;> exact SameTx.refl s

/-! ### SEND -/

/-- A frame is appended to an empty TXQ only when mailbox 0 is busy (44_driver.md R251). -/
theorem sendQueued_notStranded {s : State} (hs : s.NotStranded) (f : Frame) : (sendQueued f s).NotStranded := by
  by_cases hstraight : s.txq.cnt = 0 ∧ s.env.tme0 = true
  · rw [sendQueued_straight hstraight]
    exact notStranded_of_busy (m := .mb0) rfl
  · by_cases hfull : s.txq.cnt = s.txq.cap
    · rw [sendQueued_full hstraight hfull]
      exact hs
    · obtain ⟨q, -, hsend⟩ := sendQueued_append (f := f) hstraight hfull
      rw [hsend]
      by_cases hcnt : s.txq.cnt = 0
      · exact notStranded_of_busy (m := .mb0) (by simpa [hcnt] using hstraight)
      · exact fun hrun _ => hs hrun hcnt

theorem sendWriteStep_notStranded (m : Mailbox) (f : Frame) (s : State) :
    Answers State.NotStranded (sendWriteStep m f s) := by
  rcases sendWriteStep_cases m f s with ⟨-, h⟩ | ⟨-, h⟩ <;> rw [h]
  · exact answers_next (notStranded_of_busy (m := m) (Env.setTme_tme s.env m m false |>.trans (if_pos rfl)))
  · exact answers_fault _ _

theorem sendDirect_notStranded {s : State} (hs : s.NotStranded) (m : Mailbox) (f : Frame) :
    Answers State.NotStranded (sendDirect m f s) :=
  answers_ite (answers_next hs) (answers_ite (sendWriteStep_notStranded m f s) (answers_next hs))

theorem execSend_notStranded {s : State} (hs : s.NotStranded) : Answers State.NotStranded (execSend s) := by
  refine answers_ite (answers_next hs) ?_
  split
  · exact answers_next (sendQueued_notStranded hs _)
  · exact sendDirect_notStranded hs _ _
  · exact sendDirect_notStranded hs _ _
  · exact answers_next hs

/-! ### Handlers -/

theorem exec_rxIsr_notStranded {s : State} (hs : s.NotStranded) (k : FifoId) :
    Answers State.NotStranded (exec (rxIsr k) s) := by
  rw [exec_rxIsr]
  exact answers_ite (answers_next ((receiveHandler_sameTx k s).notStranded hs)) (answers_next hs)

/-- H_TX clears the completion flag only after it has filled a mailbox, or with none free or nothing queued
(60_exceptions.md R289). -/
theorem transmitHandler_notStranded {s : State} (hs : s.NotStranded) :
    Answers State.NotStranded (transmitHandler s) := by
  rcases transmitHandler_cases s with ⟨-, h⟩ | ⟨-, hno, h⟩ | ⟨-, -, f, q, -, ⟨-, h⟩ | ⟨m, -, h⟩⟩ <;> rw [h]
  · exact answers_next hs
  · refine answers_next ?_
    rcases hno with hbusy | hempty
    · exact notStranded_of_busy (m := .mb0) (anyFree_eq_false.1 hbusy).1
    · exact notStranded_of_empty (remove_none.1 hempty)
  · exact answers_fault _ _
  · exact answers_next (notStranded_of_busy (m := m) (by cases m <;> rfl))

theorem exec_isrTx_notStranded {s : State} (hs : s.NotStranded) : Answers State.NotStranded (exec .isrTx s) :=
  answers_ite (transmitHandler_notStranded hs) (answers_next hs)

/-! ### Instructions -/

/-- No command starts the driver in its first step (44_driver.md R260). -/
theorem exec_not_running {s : State} (h : s.dState ≠ .running) (i : Instr) :
    Answers (fun t => t.dState ≠ .running) (exec i s) := by
  by_cases hbegin : i = .drvBegin
  · subst hbegin
    refine answers_ite (answers_next h) (answers_ite (answers_next h) (answers_next ?_))
    rw [beginStepA_eq]
    exact nofun
  · by_cases hend : i = .drvEnd
    · subst hend
      exact answers_ite (answers_next h) (answers_next nofun)
    · intro t ht
      have hseq := exec_keepsSequencing s hbegin hend t ht
      rwa [show t.dState = s.dState from congrArg Sequencing.dState hseq]

/-- While the driver runs, every command that could change TXQ is refused but SEND, which has its own argument, and
END, which stops the driver. -/
theorem exec_notStranded_of_running {s : State} (hs : s.NotStranded) (hrun : s.dState = .running) (i : Instr) :
    Answers State.NotStranded (exec i s) := by
  have hsame {t : State} (h : SameTx s t) : Answers State.NotStranded (.next t) := answers_next (h.notStranded hs)
  have howned (r : Result) : Answers State.NotStranded (if !s.queuesFree then .next (s.refuse .owned) else r) := by
    rw [refused_of_owned (.inr hrun)]
    exact answers_next hs
  cases i with
  | qinit | qappend | qremove | qfree => exact howned _
  | qrstpeak q => exact hsame (setQueue_resetPeak_sameTx s q)
  | qcount | qpeak | qcap | resolve | tset | tget | tcheck | trate | texact | tppm | tsample | sset | sget | fcount | fget
  | avail0 | avail1 | dstate => exact fun t h => (exec_registersOnly rfl s t h).sameTx.notStranded hs
  | fstdmask | fstdquad | fextmask | fextdual => exact hsame (filterCommand_sameTx _ _ _ s)
  | drvBegin =>
    rw [execBegin_refused (by simp [hrun])]
    exact answers_next hs
  | drvEnd => exact answers_ite (answers_next hs) (answers_next (notStranded_of_not_running nofun))
  | send => exact execSend_notStranded hs
  | recv0 => exact answers_ite (answers_next hs) (hsame (recv_sameTx .fifo0 s))
  | recv1 => exact answers_ite (answers_next hs) (hsame (recv_sameTx .fifo1 s))
  | disp0 | disp1 | disp => exact answers_ite (answers_next hs) (hsame (dispatchPop_sameTx (SameTx.refl s)))
  | isrRx0 => exact exec_rxIsr_notStranded hs .fifo0
  | isrRx1 => exact exec_rxIsr_notStranded hs .fifo1
  | isrTx => exact exec_isrTx_notStranded hs

theorem exec_notStranded {s : State} (hs : s.NotStranded) (i : Instr) : Answers State.NotStranded (exec i s) := by
  by_cases hrun : s.dState = .running
  · exact exec_notStranded_of_running hs hrun i
  · exact fun t h => notStranded_of_not_running (exec_not_running hrun i t h)

/-! ### Steps -/

/-- The driver starts to run at the exit of wait 3, with TXQ empty. -/
theorem continueMain_notStranded {s : State} (hinv : s.Inv) (hs : s.NotStranded) :
    Answers State.NotStranded (continueMain s) := by
  unfold continueMain
  split
  · refine answers_ite (answers_next ?_) (answers_next hs)
    rw [beginStepB_eq]
    exact hs
  · exact answers_ite (answers_next hs) (answers_next hs)
  · next hseq =>
    have hinit : s.dState = .initializing := hinv.seq_init.1 (by simp [hseq])
    exact answers_ite (answers_next (notStranded_of_empty (hinv.tx_empty hinit))) (answers_next hs)
  · split
    · exact answers_next hs
    · exact sendWriteStep_notStranded _ _ s
    · exact answers_next ((dispatchCall_sameTx _ _ _ s).notStranded hs)
    · exact answers_next ((dispatchPop_sameTx (SameTx.refl s)).notStranded hs)

theorem hostStep_notStranded {s : State} (hs : s.NotStranded) (a : HostAction) :
    Answers State.NotStranded (hostStep a s) := by
  cases a with
  | read reg => exact answers_next hs
  | write reg w =>
    refine answers_ite ?_ (answers_next ((hostWriteReg_sameTx s reg w).notStranded hs))
    rcases runCommand_cases w s with ⟨_, -, h⟩ | ⟨i, -, h⟩ <;> rw [h]
    · exact answers_next hs
    · exact exec_notStranded hs i

theorem mainStep_notStranded {s : State} (hinv : s.Inv) (hs : s.NotStranded) :
    Answers State.NotStranded (mainStep s) := by
  rcases mainStep_cases s with ⟨-, h⟩ | ⟨-, -, h⟩ | ⟨-, a, hs', -, h⟩ <;> rw [h]
  · exact continueMain_notStranded hinv hs
  · exact answers_next hs
  · exact hostStep_notStranded (s := { s with host := hs' }) hs a

theorem strobeStep_notStranded {s : State} (hs : s.NotStranded) (v : BitVec 2) :
    Answers State.NotStranded (strobeStep v s) := by
  unfold strobeStep
  split
  · exact answers_next hs
  · exact exec_notStranded hs _

/-- While the driver runs, ENV cannot replace the inputs at once (10_state.md R62). -/
theorem inputsOpen_of_running {s : State} (hinv : s.Inv) (hrun : s.dState = .running) : s.inputsOpen = false := by
  have hseq : s.seq = .idle := by simpa [hrun] using hinv.seq_init
  simp [State.inputsOpen, hrun, hseq]

/-- ENV frees a mailbox only together with the completion flag (10_state.md R51 a). -/
theorem envMoved_notStranded {s : State} (hinv : s.Inv) (hs : s.NotStranded) (m : EnvMove) :
    ({ s with env := envMoved m s } : State).NotStranded := by
  cases m with
  | settle e =>
    intro hrun
    rw [envMoved, inputsOpen_of_running hinv hrun]
    exact hs hrun
  | setInak b => exact hs
  | setCode c => exact hs
  | raiseTxc => exact notStranded_of_pending rfl
  | freeMailbox mb =>
    simp only [envMoved]
    split
    · exact hs
    · exact notStranded_of_pending rfl
  | setHead k =>
    simp only [envMoved]
    split
    · exact hs
    · exact (setRx_sameTx s k _).notStranded hs
  | raisePending k | raiseFull k | raiseOverrun k => exact (setRx_sameTx s k _).notStranded hs

/-- Settles O55, by what each agent's step does to TXQ, the mailboxes and the completion flag. -/
theorem queuedFramesAreNeverStranded : Obligations.QueuedFramesAreNeverStranded := by
  refine ⟨notStranded_of_not_running nofun, fun s s' hinv hs => ?_⟩
  suffices hstep : Answers State.NotStranded (step s) from hstep s'
  rcases step_cases s with ⟨-, h⟩ | ⟨t, ts, -, h⟩ <;> rw [h]
  · exact mainStep_notStranded hinv hs
  · have hturn : ({ s with turns := ts } : State).Inv := { hinv with }
    cases t with
    | main => exact mainStep_notStranded hturn hs
    | strobe v => exact strobeStep_notStranded (s := { s with turns := ts }) hs v
    | env m => exact answers_next (envMoved_notStranded hturn hs m)
    | reset => exact answers_next (notStranded_of_not_running nofun)

end Machine
end Sys2Proof
end

section
/-!
PROOFS. The encoding: a code and its instruction determine each other (30_encoding.md R102 to R107, R125; D2), and the
opcode table's rows tell the instructions apart (R113).
-/

namespace Sys2Proof

/-! ### Fields of a word (R102) -/

theorem opOf_lt (w : Word) : opOf w < 2 ^ 8 := by
  have := w.isLt
  unfold opOf
  omega

theorem aOf_lt (w : Word) : aOf w < 2 ^ 8 := Nat.mod_lt _ (by decide)

theorem immOf_lt (w : Word) : immOf w < 2 ^ 16 := Nat.mod_lt _ (by decide)

section Fields

variable {op a imm : Nat} (hop : op < 256) (ha : a < 256) (himm : imm < 65536)
include hop ha himm

theorem toNat_mkWord : (mkWord op a imm).toNat = op * 2 ^ 24 + a * 2 ^ 16 + imm := by
  rw [mkWord, BitVec.toNat_ofNat, Nat.mod_eq_of_lt (by omega)]

@[simp] theorem opOf_mkWord : opOf (mkWord op a imm) = op := by
  rw [opOf, toNat_mkWord hop ha himm]
  omega

@[simp] theorem aOf_mkWord : aOf (mkWord op a imm) = a := by
  rw [aOf, toNat_mkWord hop ha himm]
  omega

@[simp] theorem immOf_mkWord : immOf (mkWord op a imm) = imm := by
  rw [immOf, toNat_mkWord hop ha himm]
  omega

end Fields

theorem toNat_eq_fields (w : Word) : w.toNat = opOf w * 2 ^ 24 + aOf w * 2 ^ 16 + immOf w := by
  unfold opOf aOf immOf
  omega

/-- The three fields are the whole word. -/
theorem mkWord_fields (w : Word) : mkWord (opOf w) (aOf w) (immOf w) = w := by
  rw [mkWord, ← toNat_eq_fields, BitVec.ofNat_toNat, BitVec.setWidth_eq]

/-! ### Operand fields (R110, R111, 10_state.md R30) -/

/-- `ofCode` reads exactly the numbers `code` gives, all of at most `bits` bits. When it leaves a number of that many bits
unread, the decoder's error `e` is the one for a reserved queue number or for a reserved selector. -/
structure Operand {α : Type} (ofCode : Nat → Option α) (code : α → Nat) (bits : Nat) (e : DecodeError) : Prop where
  bits_le : bits ≤ 8
  ofCode_code (x : α) : ofCode (code x) = some x
  code_lt (x : α) : code x < 2 ^ bits
  code_of_some {a : Nat} {x : α} : ofCode a = some x → code x = a
  reserved {a : Nat} : a < 2 ^ bits → ofCode a = none → e = .reservedQueue ∨ e = .reservedSelector

theorem Operand.code_lt_field {α : Type} {ofCode : Nat → Option α} {code : α → Nat} {bits : Nat} {e : DecodeError}
    (operand : Operand ofCode code bits e) (x : α) : code x < 256 :=
  (operand.code_lt x).trans_le (Nat.pow_le_pow_right (by decide) operand.bits_le)

theorem queueOperand : Operand QueueId.ofCode QueueId.code 2 .reservedQueue where
  bits_le := by decide
  ofCode_code q := by cases q <;> rfl
  code_lt q := by cases q <;> decide
  code_of_some {a x} h := by unfold QueueId.ofCode at h; split at h <;> cases h <;> rfl
  reserved _ _ := .inl rfl

theorem fifoOperand : Operand FifoId.ofCode FifoId.code 1 .reservedFifo where
  bits_le := by decide
  ofCode_code k := by cases k <;> rfl
  code_lt k := by cases k <;> decide
  code_of_some {a x} h := by unfold FifoId.ofCode at h; split at h <;> cases h <;> rfl
  reserved {a} ha h := by
    obtain rfl | rfl : a = 0 ∨ a = 1 := by omega
    all_goals cases h

theorem tfieldOperand : Operand TField.ofCode TField.code 3 .reservedSelector where
  bits_le := by decide
  ofCode_code f := by cases f <;> rfl
  code_lt f := by cases f <;> decide
  code_of_some {a x} h := by unfold TField.ofCode at h; split at h <;> cases h <;> rfl
  reserved _ _ := .inr rfl

theorem sfieldOperand : Operand SField.ofCode SField.code 3 .reservedSelector where
  bits_le := by decide
  ofCode_code f := by cases f <;> rfl
  code_lt f := by cases f <;> decide
  code_of_some {a x} h := by unfold SField.ofCode at h; split at h <;> cases h <;> rfl
  reserved _ _ := .inr rfl

theorem fwhatOperand : Operand FWhat.ofCode FWhat.code 4 .reservedSelector where
  bits_le := by decide
  ofCode_code f := by cases f <;> rfl
  code_lt f := by cases f <;> decide
  code_of_some {a x} h := by unfold FWhat.ofCode at h; split at h <;> cases h <;> rfl
  reserved _ _ := .inr rfl

/-- Reads an operand field that must be 0 (R103, format N). -/
def zeroOfCode : Nat → Option Unit
  | 0 => some ()
  | _ => none

theorem zeroOperand : Operand zeroOfCode (fun _ => 0) 0 .unusedField where
  bits_le := by decide
  ofCode_code _ := rfl
  code_lt _ := by decide
  code_of_some {a x} h := by unfold zeroOfCode at h; split at h <;> cases h; rfl
  reserved {a} ha h := by
    obtain rfl : a = 0 := by omega
    cases h

/-! ### Rows of the opcode table by their fields (R113) -/

/-- The row of opcode `op` whose mask leaves the low `aBits` bits of `a` and the low `immBits` bits of `imm` free. -/
def fieldRow (name : String) (op aBits immBits : Nat) : Row :=
  ⟨name, 32, op * 2 ^ 24, 0xFF * 2 ^ 24 + (2 ^ 8 - 2 ^ aBits) * 2 ^ 16 + (2 ^ 16 - 2 ^ immBits)⟩

/-- The mask is that of the bits from `k` up. -/
theorem and_highMask_eq_zero {x n k : Nat} (hk : k ≤ n) (hx : x < 2 ^ n) :
    x &&& (2 ^ n - 2 ^ k) = 0 ↔ x < 2 ^ k := by
  have hmask : 2 ^ n - 2 ^ k = 2 ^ k * (2 ^ (n - k) - 1) := by
    rw [Nat.mul_sub, ← Nat.pow_add, Nat.add_sub_cancel' hk, Nat.mul_one]
  have hhigh : (x &&& (2 ^ n - 2 ^ k)) / 2 ^ k = x / 2 ^ k := by
    rw [Nat.and_div_two_pow, hmask, Nat.mul_div_cancel_left _ (Nat.two_pow_pos k), Nat.and_two_pow_sub_one_eq_mod,
      Nat.mod_eq_of_lt (Nat.div_lt_of_lt_mul (by rwa [← Nat.pow_add, Nat.add_sub_cancel' hk]))]
  have hlow : (x &&& (2 ^ n - 2 ^ k)) % 2 ^ k = 0 := by
    rw [Nat.and_mod_two_pow, hmask, Nat.mul_mod_right, Nat.and_zero]
  rw [← Nat.div_eq_zero_iff_lt (Nat.two_pow_pos k), ← hhigh]
  constructor
  · intro h; rw [h, Nat.zero_div]
  · intro h; rw [← Nat.div_add_mod (x &&& (2 ^ n - 2 ^ k)) (2 ^ k), h, hlow]; rfl

/-- A word meets a mask and a pattern when each of its fields does. -/
theorem and_eq_iff_fields (w : Word) (m p : Nat) :
    w.toNat &&& m = p ↔ opOf w &&& m / 2 ^ 24 = p / 2 ^ 24 ∧ aOf w &&& m / 2 ^ 16 % 2 ^ 8 = p / 2 ^ 16 % 2 ^ 8 ∧
      immOf w &&& m % 2 ^ 16 = p % 2 ^ 16 := by
  have hop : (w.toNat &&& m) / 2 ^ 24 = opOf w &&& m / 2 ^ 24 := Nat.and_div_two_pow
  have ha : (w.toNat &&& m) / 2 ^ 16 % 2 ^ 8 = aOf w &&& m / 2 ^ 16 % 2 ^ 8 := by
    rw [Nat.and_div_two_pow, Nat.and_mod_two_pow, aOf]
  have himm : (w.toNat &&& m) % 2 ^ 16 = immOf w &&& m % 2 ^ 16 := Nat.and_mod_two_pow
  rw [← hop, ← ha, ← himm]
  omega

theorem opOf_and_ones (w : Word) : opOf w &&& 0xFF = opOf w := by
  rw [Nat.and_two_pow_sub_one_eq_mod (n := 8), Nat.mod_eq_of_lt (opOf_lt w)]

theorem selects_command_iff (r : Row) (w : Word) :
    r.selects (.command w) = true ↔ r.width = 32 ∧ w.toNat &&& r.mask = r.pattern := by
  simp [Row.selects]

theorem selects_vector_iff (r : Row) (v : BitVec 2) :
    r.selects (.vector v) = true ↔ r.width = 2 ∧ v.toNat &&& r.mask = r.pattern := by
  simp [Row.selects]

theorem fieldRow_selects {name : String} {op aBits immBits : Nat} (ha : aBits ≤ 8) (himm : immBits ≤ 16) (w : Word) :
    (fieldRow name op aBits immBits).selects (.command w) = true ↔
      opOf w = op ∧ aOf w < 2 ^ aBits ∧ immOf w < 2 ^ immBits := by
  have ha1 := Nat.two_pow_pos aBits
  have himm1 := Nat.two_pow_pos immBits
  simp only [selects_command_iff, fieldRow, true_and, and_eq_iff_fields]
  rw [← and_highMask_eq_zero ha (aOf_lt w), ← and_highMask_eq_zero himm (immOf_lt w)]
  generalize 2 ^ aBits = x at *
  generalize 2 ^ immBits = y at *
  rw [show (0xFF * 2 ^ 24 + (2 ^ 8 - x) * 2 ^ 16 + (2 ^ 16 - y)) / 2 ^ 24 = 0xFF by omega,
    show (0xFF * 2 ^ 24 + (2 ^ 8 - x) * 2 ^ 16 + (2 ^ 16 - y)) / 2 ^ 16 % 2 ^ 8 = 2 ^ 8 - x by omega,
    show (0xFF * 2 ^ 24 + (2 ^ 8 - x) * 2 ^ 16 + (2 ^ 16 - y)) % 2 ^ 16 = 2 ^ 16 - y by omega,
    Nat.mul_div_cancel _ (by decide), show op * 2 ^ 24 / 2 ^ 16 % 2 ^ 8 = 0 by omega,
    show op * 2 ^ 24 % 2 ^ 16 = 0 by omega, opOf_and_ones]

/-! ### A code's row (R113) -/

/-- The pattern of the row a code selects, if it selects one. -/
def Code.pattern : Code → Nat
  | .command w => opOf w * 2 ^ 24
  | .vector v => v.toNat

/-- A command's row fixes the opcode, a vector code's row both bits. -/
theorem mask_of_mem_opcodeTable : ∀ r ∈ opcodeTable,
    r.width = 32 ∧ r.mask / 2 ^ 24 = 0xFF ∧ r.pattern / 2 ^ 24 * 2 ^ 24 = r.pattern ∨ r.width = 2 ∧ r.mask = 3 := by
  decide

theorem patterns_nodup : (opcodeTable.map Row.pattern).Nodup := by decide

theorem row_eq_of_pattern_eq {r r' : Row} (hr : r ∈ opcodeTable) (hr' : r' ∈ opcodeTable)
    (h : r.pattern = r'.pattern) : r = r' :=
  List.inj_on_of_nodup_map patterns_nodup hr hr' h

theorem pattern_of_selects {r : Row} {c : Code} (hr : r ∈ opcodeTable) (h : r.selects c = true) :
    r.pattern = c.pattern := by
  cases c with
  | command w =>
    obtain ⟨hwidth, hfields⟩ := (selects_command_iff r w).1 h
    obtain ⟨hop, -⟩ := (and_eq_iff_fields w _ _).1 hfields
    obtain ⟨-, hmask, hpat⟩ | ⟨h2, -⟩ := mask_of_mem_opcodeTable r hr
    · rw [hmask, opOf_and_ones] at hop
      rw [← hpat, ← hop, Code.pattern]
    · omega
  | vector v =>
    obtain ⟨hwidth, hpat⟩ := (selects_vector_iff r v).1 h
    obtain ⟨h32, -⟩ | ⟨-, hmask⟩ := mask_of_mem_opcodeTable r hr
    · omega
    · rw [← hpat, hmask, Nat.and_two_pow_sub_one_eq_mod (n := 2), Nat.mod_eq_of_lt v.isLt, Code.pattern]

/-! ### Formats (R103) -/

/-- The formats with an operand in `a` and an `imm` that must be 0: Q, F, S for TGET and for SGET, and N, whose operand
is 0. -/
def bareFormat {α : Type} (ofCode : Nat → Option α) (e : DecodeError) (mk : α → Instr) (a imm : Nat) :
    Except DecodeError Instr :=
  match ofCode a with
  | none => .error e
  | some x => if imm = 0 then .ok (mk x) else .error .unusedField

/-- The formats with an operand in `a` and an immediate: QI, G, and SI for TSET and for SSET. -/
def immFormat {α : Type} (ofCode : Nat → Option α) (e : DecodeError) (mk : α → Nat → Instr) (a imm : Nat) :
    Except DecodeError Instr :=
  match ofCode a with
  | none => .error e
  | some x => .ok (mk x imm)

theorem formatN_eq (i : Instr) (a imm : Nat) :
    formatN i a imm = bareFormat zeroOfCode .unusedField (fun _ => i) a imm := by
  unfold formatN bareFormat
  cases a <;> simp [zeroOfCode]

theorem formatQ_eq (mk : QueueId → Instr) (a imm : Nat) :
    formatQ mk a imm = bareFormat QueueId.ofCode .reservedQueue mk a imm := by
  unfold formatQ bareFormat; cases QueueId.ofCode a <;> rfl

theorem formatF_eq (mk : FifoId → Instr) (a imm : Nat) :
    formatF mk a imm = bareFormat FifoId.ofCode .reservedFifo mk a imm := by
  unfold formatF bareFormat; cases FifoId.ofCode a <;> rfl

theorem formatST_eq (mk : TField → Instr) (a imm : Nat) :
    formatST mk a imm = bareFormat TField.ofCode .reservedSelector mk a imm := by
  unfold formatST bareFormat; cases TField.ofCode a <;> rfl

theorem formatSS_eq (mk : SField → Instr) (a imm : Nat) :
    formatSS mk a imm = bareFormat SField.ofCode .reservedSelector mk a imm := by
  unfold formatSS bareFormat; cases SField.ofCode a <;> rfl

theorem formatQI_eq (mk : QueueId → Nat → Instr) (a imm : Nat) :
    formatQI mk a imm = immFormat QueueId.ofCode .reservedQueue mk a imm := by
  unfold formatQI immFormat; cases QueueId.ofCode a <;> rfl

theorem formatSIT_eq (mk : TField → Nat → Instr) (a imm : Nat) :
    formatSIT mk a imm = immFormat TField.ofCode .reservedSelector mk a imm := by
  unfold formatSIT immFormat; cases TField.ofCode a <;> rfl

theorem formatSIS_eq (mk : SField → Nat → Instr) (a imm : Nat) :
    formatSIS mk a imm = immFormat SField.ofCode .reservedSelector mk a imm := by
  unfold formatSIS immFormat; cases SField.ofCode a <;> rfl

theorem formatG_eq (mk : FWhat → Nat → Instr) (a imm : Nat) :
    formatG mk a imm = immFormat FWhat.ofCode .reservedSelector mk a imm := by
  unfold formatG immFormat; cases FWhat.ofCode a <;> rfl

section OperandFormats

variable {α : Type} {ofCode : Nat → Option α} {code : α → Nat} {bits : Nat} {e : DecodeError}
  (operand : Operand ofCode code bits e)
include operand

theorem bareFormat_code (mk : α → Instr) (x : α) : bareFormat ofCode e mk (code x) 0 = .ok (mk x) := by
  simp [bareFormat, operand.ofCode_code]

theorem immFormat_code (mk : α → Nat → Instr) (x : α) (n : Nat) :
    immFormat ofCode e mk (code x) n = .ok (mk x n) := by
  rw [immFormat, operand.ofCode_code]

end OperandFormats

/-! ### What a row demands of the decoder (R113) -/

/-- What the table's row `r` demands of the answer `res` to a word `w` with its opcode: an instruction only of that
mnemonic, whose encoding is `w`, when the row selects `w`; to a word it selects, no error but a reserved value's. -/
structure Row.Answered (r : Row) (w : Word) (res : Except DecodeError Instr) : Prop where
  mem : r ∈ opcodeTable
  pattern_eq : r.pattern = opOf w * 2 ^ 24
  ok (i : Instr) : res = .ok i →
    i.wf = true ∧ encode i = .command w ∧ r.mnemonic = i.mnemonic ∧ r.selects (.command w) = true
  error (e : DecodeError) : res = .error e → r.selects (.command w) = true →
    e = .reservedQueue ∨ e = .reservedSelector

section Answered

variable {w : Word} {op : Nat} (hop : opOf w = op) (name : String) {α : Type} {ofCode : Nat → Option α}
  {code : α → Nat} {bits : Nat} {e : DecodeError} (operand : Operand ofCode code bits e)
include hop operand

theorem bareFormat_answered {mk : α → Instr} (hmem : fieldRow name op bits 0 ∈ opcodeTable)
    (hmk : ∀ x, (mk x).wf = true ∧ encode (mk x) = .command (mkWord op (code x) 0) ∧ name = (mk x).mnemonic) :
    (fieldRow name op bits 0).Answered w (bareFormat ofCode e mk (aOf w) (immOf w)) := by
  have hsel := fieldRow_selects (name := name) (op := op) operand.bits_le (Nat.zero_le 16) w
  have hw := mkWord_fields w
  rw [hop] at hw
  unfold bareFormat
  refine ⟨hmem, by rw [hop]; rfl, fun i hi => ?_, fun e' he hs => ?_⟩
  · split at hi
    · cases hi
    next x hx =>
    split at hi <;> cases hi
    next himm =>
    have ha := operand.code_of_some hx
    rw [← ha, himm] at hw
    obtain ⟨hwf, henc, hname⟩ := hmk x
    exact ⟨hwf, hw ▸ henc, hname, hsel.2 ⟨hop, ha ▸ operand.code_lt x, by omega⟩⟩
  · obtain ⟨-, ha, himm⟩ := hsel.1 hs
    split at he
    next hnone =>
      cases he
      exact operand.reserved ha hnone
    · rw [if_pos (by omega)] at he
      cases he

theorem immFormat_answered {mk : α → Nat → Instr} (hmem : fieldRow name op bits 16 ∈ opcodeTable)
    (hmk : ∀ x n, n < 65536 →
      (mk x n).wf = true ∧ encode (mk x n) = .command (mkWord op (code x) n) ∧ name = (mk x n).mnemonic) :
    (fieldRow name op bits 16).Answered w (immFormat ofCode e mk (aOf w) (immOf w)) := by
  have hsel := fieldRow_selects (name := name) (op := op) operand.bits_le (Nat.le_refl 16) w
  have hw := mkWord_fields w
  rw [hop] at hw
  unfold immFormat
  refine ⟨hmem, by rw [hop]; rfl, fun i hi => ?_, fun e' he hs => ?_⟩
  · split at hi <;> cases hi
    next x hx =>
    have ha := operand.code_of_some hx
    obtain ⟨hwf, henc, hname⟩ := hmk x _ (immOf_lt w)
    rw [ha, hw] at henc
    exact ⟨hwf, henc, hname, hsel.2 ⟨hop, ha ▸ operand.code_lt x, immOf_lt w⟩⟩
  · split at he <;> cases he
    next hnone => exact operand.reserved (hsel.1 hs).2.1 hnone

end Answered

/-! ### Decoding a command word (R101, R106) -/

/-- Each opcode's format is the one its row of the table describes, and no row has any other opcode (R106). -/
theorem decodeCommand_answered (w : Word) :
    (∃ r : Row, r.Answered w (decodeCommand w)) ∨
      decodeCommand w = .error .unknownOpcode ∧ ∀ r ∈ opcodeTable, r.selects (.command w) = false := by
  unfold decodeCommand
  simp only [formatN_eq, formatQ_eq, formatF_eq, formatST_eq, formatSS_eq, formatQI_eq, formatSIT_eq, formatSIS_eq,
    formatG_eq]
  split
  · exact .inl ⟨_, immFormat_answered ‹_› "QINIT" queueOperand (by decide) fun _ _ h => ⟨decide_eq_true h, rfl, rfl⟩⟩
  · exact .inl ⟨_, bareFormat_answered ‹_› "QAPPEND" queueOperand (by decide) fun _ => ⟨rfl, rfl, rfl⟩⟩
  · exact .inl ⟨_, bareFormat_answered ‹_› "QREMOVE" queueOperand (by decide) fun _ => ⟨rfl, rfl, rfl⟩⟩
  · exact .inl ⟨_, bareFormat_answered ‹_› "QFREE" queueOperand (by decide) fun _ => ⟨rfl, rfl, rfl⟩⟩
  · exact .inl ⟨_, bareFormat_answered ‹_› "QRSTPEAK" queueOperand (by decide) fun _ => ⟨rfl, rfl, rfl⟩⟩
  · exact .inl ⟨_, bareFormat_answered ‹_› "QCOUNT" queueOperand (by decide) fun _ => ⟨rfl, rfl, rfl⟩⟩
  · exact .inl ⟨_, bareFormat_answered ‹_› "QPEAK" queueOperand (by decide) fun _ => ⟨rfl, rfl, rfl⟩⟩
  · exact .inl ⟨_, bareFormat_answered ‹_› "QCAP" queueOperand (by decide) fun _ => ⟨rfl, rfl, rfl⟩⟩
  · exact .inl ⟨_, bareFormat_answered ‹_› "RESOLVE" zeroOperand (by decide) fun _ => ⟨rfl, rfl, rfl⟩⟩
  · exact .inl ⟨_, immFormat_answered ‹_› "TSET" tfieldOperand (by decide) fun _ _ h => ⟨decide_eq_true h, rfl, rfl⟩⟩
  · exact .inl ⟨_, bareFormat_answered ‹_› "TGET" tfieldOperand (by decide) fun _ => ⟨rfl, rfl, rfl⟩⟩
  · exact .inl ⟨_, bareFormat_answered ‹_› "TCHECK" zeroOperand (by decide) fun _ => ⟨rfl, rfl, rfl⟩⟩
  · exact .inl ⟨_, bareFormat_answered ‹_› "TRATE" zeroOperand (by decide) fun _ => ⟨rfl, rfl, rfl⟩⟩
  · exact .inl ⟨_, bareFormat_answered ‹_› "TEXACT" zeroOperand (by decide) fun _ => ⟨rfl, rfl, rfl⟩⟩
  · exact .inl ⟨_, bareFormat_answered ‹_› "TPPM" zeroOperand (by decide) fun _ => ⟨rfl, rfl, rfl⟩⟩
  · exact .inl ⟨_, bareFormat_answered ‹_› "TSAMPLE" zeroOperand (by decide) fun _ => ⟨rfl, rfl, rfl⟩⟩
  · exact .inl ⟨_, immFormat_answered ‹_› "SSET" sfieldOperand (by decide) fun _ _ h => ⟨decide_eq_true h, rfl, rfl⟩⟩
  · exact .inl ⟨_, bareFormat_answered ‹_› "SGET" sfieldOperand (by decide) fun _ => ⟨rfl, rfl, rfl⟩⟩
  · exact .inl ⟨_, bareFormat_answered ‹_› "FSTDMASK" fifoOperand (by decide) fun _ => ⟨rfl, rfl, rfl⟩⟩
  · exact .inl ⟨_, bareFormat_answered ‹_› "FSTDQUAD" fifoOperand (by decide) fun _ => ⟨rfl, rfl, rfl⟩⟩
  · exact .inl ⟨_, bareFormat_answered ‹_› "FEXTMASK" fifoOperand (by decide) fun _ => ⟨rfl, rfl, rfl⟩⟩
  · exact .inl ⟨_, bareFormat_answered ‹_› "FEXTDUAL" fifoOperand (by decide) fun _ => ⟨rfl, rfl, rfl⟩⟩
  · exact .inl ⟨_, bareFormat_answered ‹_› "FCOUNT" zeroOperand (by decide) fun _ => ⟨rfl, rfl, rfl⟩⟩
  · exact .inl ⟨_, immFormat_answered ‹_› "FGET" fwhatOperand (by decide) fun _ _ h => ⟨decide_eq_true h, rfl, rfl⟩⟩
  · exact .inl ⟨_, bareFormat_answered ‹_› "BEGIN" zeroOperand (by decide) fun _ => ⟨rfl, rfl, rfl⟩⟩
  · exact .inl ⟨_, bareFormat_answered ‹_› "END" zeroOperand (by decide) fun _ => ⟨rfl, rfl, rfl⟩⟩
  · exact .inl ⟨_, bareFormat_answered ‹_› "SEND" zeroOperand (by decide) fun _ => ⟨rfl, rfl, rfl⟩⟩
  · exact .inl ⟨_, bareFormat_answered ‹_› "RECV0" zeroOperand (by decide) fun _ => ⟨rfl, rfl, rfl⟩⟩
  · exact .inl ⟨_, bareFormat_answered ‹_› "RECV1" zeroOperand (by decide) fun _ => ⟨rfl, rfl, rfl⟩⟩
  · exact .inl ⟨_, bareFormat_answered ‹_› "DISP0" zeroOperand (by decide) fun _ => ⟨rfl, rfl, rfl⟩⟩
  · exact .inl ⟨_, bareFormat_answered ‹_› "DISP1" zeroOperand (by decide) fun _ => ⟨rfl, rfl, rfl⟩⟩
  · exact .inl ⟨_, bareFormat_answered ‹_› "DISP" zeroOperand (by decide) fun _ => ⟨rfl, rfl, rfl⟩⟩
  · exact .inl ⟨_, bareFormat_answered ‹_› "AVAIL0" zeroOperand (by decide) fun _ => ⟨rfl, rfl, rfl⟩⟩
  · exact .inl ⟨_, bareFormat_answered ‹_› "AVAIL1" zeroOperand (by decide) fun _ => ⟨rfl, rfl, rfl⟩⟩
  · exact .inl ⟨_, bareFormat_answered ‹_› "DSTATE" zeroOperand (by decide) fun _ => ⟨rfl, rfl, rfl⟩⟩
  · refine .inr ⟨rfl, fun r hr => Bool.eq_false_iff.2 fun hsel => ?_⟩
    have hpat : r.pattern = opOf w * 2 ^ 24 := pattern_of_selects hr hsel
    obtain ⟨hwidth, -⟩ := (selects_command_iff r w).1 hsel
    clear hsel
    -- every command row's opcode is one of those the branches above exclude
    fin_cases hr <;> grind

/-! ### What a code decodes to -/

/-- A vector code decodes only to the handler of its row (R107). -/
theorem decodeVector_ok {v : BitVec 2} {i : Instr} (h : decodeVector v = .ok i) :
    i.wf = true ∧ encode i = .vector v ∧ ∃ r ∈ opcodeTable, r.mnemonic = i.mnemonic ∧ r.selects (.vector v) = true := by
  unfold decodeVector at h
  split at h <;> cases h
  next hv =>
    obtain rfl : v = 0#2 := BitVec.eq_of_toNat_eq hv
    exact ⟨rfl, rfl, ⟨"ISR_RX0", 2, 0, 3⟩, by decide, rfl, rfl⟩
  next hv =>
    obtain rfl : v = 1#2 := BitVec.eq_of_toNat_eq hv
    exact ⟨rfl, rfl, ⟨"ISR_RX1", 2, 1, 3⟩, by decide, rfl, rfl⟩
  next hv =>
    obtain rfl : v = 2#2 := BitVec.eq_of_toNat_eq hv
    exact ⟨rfl, rfl, ⟨"ISR_TX", 2, 2, 3⟩, by decide, rfl, rfl⟩

/-- The reserved code 0b11 selects no row. -/
theorem decodeVector_isOk_of_selects :
    ∀ v : BitVec 2, ∀ r ∈ opcodeTable, r.selects (.vector v) = true → (decodeVector v).isOk = true := by
  decide

/-- A code that decodes is the encoding of its instruction, and the instruction's row selects it. -/
theorem decode_ok {c : Code} {i : Instr} (h : decode c = .ok i) :
    i.wf = true ∧ encode i = c ∧ ∃ r ∈ opcodeTable, r.mnemonic = i.mnemonic ∧ r.selects c = true := by
  cases c with
  | command w =>
    obtain ⟨r, hr⟩ | ⟨herr, -⟩ := decodeCommand_answered w
    · obtain ⟨hwf, henc, hname, hsel⟩ := hr.ok i h
      exact ⟨hwf, henc, r, hr.mem, hname, hsel⟩
    · rw [decode, herr] at h
      cases h
  | vector v => exact decodeVector_ok h

theorem selected_unique {c : Code} {r r' : Row} (hr : r ∈ opcodeTable) (hr' : r' ∈ opcodeTable)
    (h : r.selects c = true) (h' : r'.selects c = true) : r = r' :=
  row_eq_of_pattern_eq hr hr' ((pattern_of_selects hr h).trans (pattern_of_selects hr' h').symm)

/-- A code that a row selects fails to decode only by a reserved queue number or selector. -/
theorem decode_error_of_selects {c : Code} {r : Row} {e : DecodeError} (hr : r ∈ opcodeTable)
    (hsel : r.selects c = true) (h : decode c = .error e) : e = .reservedQueue ∨ e = .reservedSelector := by
  cases c with
  | command w =>
    obtain ⟨r', hr'⟩ | ⟨-, hnone⟩ := decodeCommand_answered w
    · obtain rfl : r' = r := row_eq_of_pattern_eq hr'.mem hr (hr'.pattern_eq.trans (pattern_of_selects hr hsel).symm)
      exact hr'.error e h hsel
    · rw [hnone r hr] at hsel
      cases hsel
  | vector v =>
    have hok := decodeVector_isOk_of_selects v r hr hsel
    rw [← decode, h] at hok
    cases hok

/-! ### Obligations -/

/-- Settles O1: each format reads back the operand and the immediate the encoder writes. -/
theorem decodeOfEncodeIsTheInstruction : Obligations.DecodeOfEncodeIsTheInstruction := by
  intro i hwf
  cases i with
  | qinit q n =>
    have hn : n < 65536 := of_decide_eq_true hwf
    simp [decode, encode, decodeCommand, hn, queueOperand.code_lt_field, formatQI_eq, immFormat_code queueOperand]
  | qappend q | qremove q | qfree q | qrstpeak q | qcount q | qpeak q | qcap q =>
    simp [decode, encode, decodeCommand, queueOperand.code_lt_field, formatQ_eq, bareFormat_code queueOperand]
  | tset f v =>
    have hv : v < 65536 := of_decide_eq_true hwf
    simp [decode, encode, decodeCommand, hv, tfieldOperand.code_lt_field, formatSIT_eq, immFormat_code tfieldOperand]
  | tget f =>
    simp [decode, encode, decodeCommand, tfieldOperand.code_lt_field, formatST_eq, bareFormat_code tfieldOperand]
  | sset f v =>
    have hv : v < 65536 := of_decide_eq_true hwf
    simp [decode, encode, decodeCommand, hv, sfieldOperand.code_lt_field, formatSIS_eq, immFormat_code sfieldOperand]
  | sget f =>
    simp [decode, encode, decodeCommand, sfieldOperand.code_lt_field, formatSS_eq, bareFormat_code sfieldOperand]
  | fstdmask k | fstdquad k | fextmask k | fextdual k =>
    simp [decode, encode, decodeCommand, fifoOperand.code_lt_field, formatF_eq, bareFormat_code fifoOperand]
  | fget what index =>
    have hindex : index < 65536 := of_decide_eq_true hwf
    simp [decode, encode, decodeCommand, hindex, fwhatOperand.code_lt_field, formatG_eq, immFormat_code fwhatOperand]
  | resolve | tcheck | trate | texact | tppm | tsample | fcount => rfl
  | drvBegin | drvEnd | send | recv0 | recv1 | disp0 | disp1 | disp | avail0 | avail1 | dstate => rfl
  | isrRx0 | isrRx1 | isrTx => rfl

/-- Settles O2, by the row that answers a command word and the three handlers of the vector port. -/
theorem encodeOfDecodeIsTheCode : Obligations.EncodeOfDecodeIsTheCode := by
  intro c i h
  obtain ⟨hwf, henc, -⟩ := decode_ok h
  exact ⟨hwf, henc⟩

/-- Settles O3: a code selects at most the row of its own pattern, and that row answers it. -/
theorem decodedCodesAreTheOpcodeTablesCodes : Obligations.DecodedCodesAreTheOpcodeTablesCodes := by
  refine ⟨fun c i h => ?_, fun c r hr r' hr' => selected_unique hr hr', fun c r hr hsel => ?_⟩
  · obtain ⟨-, -, hrow⟩ := decode_ok h
    exact hrow
  · cases h : decode c with
    | ok i =>
      obtain ⟨-, -, r', hr', hname, hsel'⟩ := decode_ok h
      obtain rfl := selected_unique hr hr' hsel hsel'
      exact .inl ⟨i, rfl, hname.symm⟩
    | error e =>
      obtain rfl | rfl := decode_error_of_selects hr hsel h
      · exact .inr (.inl rfl)
      · exact .inr (.inr rfl)

/-- Settles O4, by running the decoder on each word. -/
theorem writtenOutWordsDecode : Obligations.WrittenOutWordsDecode := by
  unfold Obligations.WrittenOutWordsDecode
  decide

end Sys2Proof
end
